-- ==== Sys2Proof/Word.lean ====
section
/-! DEFINITION. The words of the machine: the bit-vector types the other files use, under the spec's names
(00_scope.md R7 to R9, 10_state.md R31 to R34, R42). -/

namespace Sys2Proof

/-- A data byte (R9). -/
abbrev Byte := BitVec 8

/-- An instruction word, 16 bits (30_encoding.md R110). -/
abbrev Word := BitVec 16

/-- A data-space address, 12 bits (00_scope.md R7, 20_memory.md R75). -/
abbrev DataAddr := BitVec 12

/-- A program-space byte address, 21 bits: what pc and a return-stack entry hold (10_state.md R34, R37). -/
abbrev ProgAddr := BitVec 21

/-- A table pointer, 22 bits (10_state.md R42). -/
abbrev TblAddr := BitVec 22

end Sys2Proof
end

