-- ==== Sys2Proof/Syntax.lean ====
section
/-! DEFINITION. The instructions as syntax: one constructor per row of spec/opcode_table.json (84 rows), with the operand
fields 30_encoding.md R111 and R121 give the row. -/

namespace Sys2Proof

/-- The destination bit `d` (00_scope.md R12): `w` = 0, the result goes to WREG; `f` = 1, to the file register. -/
inductive Dest where
  | w
  | f
deriving DecidableEq, Repr

/-- The access bit `a` (00_scope.md R12): `access` = 0, the Access Bank; `banked` = 1, the bank BSR selects. -/
inductive Access where
  | access
  | banked
deriving DecidableEq, Repr

/-- An instruction. Each constructor is named after its row's mnemonic; its docstring cites its rule. The FSR number of
`lfsr`, `addfsr` and `subfsr` keeps its two bits, so that the value 3 is an ill-formed term (WellFormed.lean). -/
inductive Instr where
  /-- ADDWF (R142). -/
  | addwf (f : Byte) (d : Dest) (a : Access)
  /-- ADDWFC (R143). -/
  | addwfc (f : Byte) (d : Dest) (a : Access)
  /-- ANDWF (R144). -/
  | andwf (f : Byte) (d : Dest) (a : Access)
  /-- CLRF (R145). -/
  | clrf (f : Byte) (a : Access)
  /-- COMF (R146). -/
  | comf (f : Byte) (d : Dest) (a : Access)
  /-- CPFSEQ (R147). -/
  | cpfseq (f : Byte) (a : Access)
  /-- CPFSGT (R148). -/
  | cpfsgt (f : Byte) (a : Access)
  /-- CPFSLT (R149). -/
  | cpfslt (f : Byte) (a : Access)
  /-- DECF (R150). -/
  | decf (f : Byte) (d : Dest) (a : Access)
  /-- DECFSZ (R151). -/
  | decfsz (f : Byte) (d : Dest) (a : Access)
  /-- DCFSNZ (R152). -/
  | dcfsnz (f : Byte) (d : Dest) (a : Access)
  /-- INCF (R153). -/
  | incf (f : Byte) (d : Dest) (a : Access)
  /-- INCFSZ (R154). -/
  | incfsz (f : Byte) (d : Dest) (a : Access)
  /-- INFSNZ (R155). -/
  | infsnz (f : Byte) (d : Dest) (a : Access)
  /-- IORWF (R156). -/
  | iorwf (f : Byte) (d : Dest) (a : Access)
  /-- MOVF (R157). -/
  | movf (f : Byte) (d : Dest) (a : Access)
  /-- MOVFF (R158). -/
  | movff (fs fd : DataAddr)
  /-- MOVWF (R159). -/
  | movwf (f : Byte) (a : Access)
  /-- MULWF (R160). -/
  | mulwf (f : Byte) (a : Access)
  /-- NEGF (R161). -/
  | negf (f : Byte) (a : Access)
  /-- RLCF (R162). -/
  | rlcf (f : Byte) (d : Dest) (a : Access)
  /-- RLNCF (R163). -/
  | rlncf (f : Byte) (d : Dest) (a : Access)
  /-- RRCF (R164). -/
  | rrcf (f : Byte) (d : Dest) (a : Access)
  /-- RRNCF (R165). -/
  | rrncf (f : Byte) (d : Dest) (a : Access)
  /-- SETF (R166). -/
  | setf (f : Byte) (a : Access)
  /-- SUBFWB (R167). -/
  | subfwb (f : Byte) (d : Dest) (a : Access)
  /-- SUBWF (R168). -/
  | subwf (f : Byte) (d : Dest) (a : Access)
  /-- SUBWFB (R169). -/
  | subwfb (f : Byte) (d : Dest) (a : Access)
  /-- SWAPF (R170). -/
  | swapf (f : Byte) (d : Dest) (a : Access)
  /-- TSTFSZ (R171). -/
  | tstfsz (f : Byte) (a : Access)
  /-- XORWF (R172). -/
  | xorwf (f : Byte) (d : Dest) (a : Access)
  /-- BCF (R181). -/
  | bcf (f : Byte) (b : BitVec 3) (a : Access)
  /-- BSF (R182). -/
  | bsf (f : Byte) (b : BitVec 3) (a : Access)
  /-- BTFSC (R183). -/
  | btfsc (f : Byte) (b : BitVec 3) (a : Access)
  /-- BTFSS (R184). -/
  | btfss (f : Byte) (b : BitVec 3) (a : Access)
  /-- BTG (R185). -/
  | btg (f : Byte) (b : BitVec 3) (a : Access)
  /-- BC (R191). -/
  | bc (n : BitVec 8)
  /-- BN (R192). -/
  | bn (n : BitVec 8)
  /-- BNC (R193). -/
  | bnc (n : BitVec 8)
  /-- BNN (R194). -/
  | bnn (n : BitVec 8)
  /-- BNOV (R195). -/
  | bnov (n : BitVec 8)
  /-- BNZ (R196). -/
  | bnz (n : BitVec 8)
  /-- BOV (R197). -/
  | bov (n : BitVec 8)
  /-- BRA (R198). -/
  | bra (n : BitVec 11)
  /-- BZ (R199). -/
  | bz (n : BitVec 8)
  /-- CALL (R200). -/
  | call (k : BitVec 20) (s : Bool)
  /-- CLRWDT (R201). -/
  | clrwdt
  /-- DAW (R202). -/
  | daw
  /-- GOTO (R203). -/
  | goto (k : BitVec 20)
  /-- NOP (R204). -/
  | nop
  /-- NOP (second-word form) (R205). -/
  | nopSecond (x : BitVec 12)
  /-- POP (R206). -/
  | pop
  /-- PUSH (R207). -/
  | push
  /-- RCALL (R208). -/
  | rcall (n : BitVec 11)
  /-- RESET (R209). -/
  | reset
  /-- RETFIE (R210). -/
  | retfie (s : Bool)
  /-- RETLW (R211). -/
  | retlw (k : Byte)
  /-- RETURN (R212). -/
  | ret (s : Bool)
  /-- SLEEP (R213). -/
  | sleep
  /-- ADDLW (R231). -/
  | addlw (k : Byte)
  /-- ANDLW (R232). -/
  | andlw (k : Byte)
  /-- IORLW (R233). -/
  | iorlw (k : Byte)
  /-- LFSR (R234). -/
  | lfsr (f : BitVec 2) (k : BitVec 12)
  /-- MOVLB (R235). -/
  | movlb (k : BitVec 4)
  /-- MOVLW (R236). -/
  | movlw (k : Byte)
  /-- MULLW (R237). -/
  | mullw (k : Byte)
  /-- SUBLW (R239). -/
  | sublw (k : Byte)
  /-- XORLW (R240). -/
  | xorlw (k : Byte)
  /-- TBLRD* (R247). -/
  | tblrd
  /-- TBLRD*+ (R248). -/
  | tblrdPostInc
  /-- TBLRD*- (R249). -/
  | tblrdPostDec
  /-- TBLRD+* (R250). -/
  | tblrdPreInc
  /-- TBLWT* (R251). -/
  | tblwt
  /-- TBLWT*+ (R252). -/
  | tblwtPostInc
  /-- TBLWT*- (R253). -/
  | tblwtPostDec
  /-- TBLWT+* (R254). -/
  | tblwtPreInc
  /-- ADDFSR (R262). -/
  | addfsr (f : BitVec 2) (k : BitVec 6)
  /-- ADDULNK (R263). -/
  | addulnk (k : BitVec 6)
  /-- CALLW (R264). -/
  | callw
  /-- MOVSF (R265). -/
  | movsf (zs : BitVec 7) (fd : DataAddr)
  /-- MOVSS (R266). -/
  | movss (zs zd : BitVec 7)
  /-- PUSHL (R267). -/
  | pushl (k : Byte)
  /-- SUBFSR (R268). -/
  | subfsr (f : BitVec 2) (k : BitVec 6)
  /-- SUBULNK (R269). -/
  | subulnk (k : BitVec 6)
deriving DecidableEq, Repr

end Sys2Proof
end

