-- ==== Sys2Proof/WellFormed.lean ====
section
/-! DEFINITION. Well-formed instructions: the operand values a row of the opcode table admits. -/

namespace Sys2Proof

/-- The FSR number of `LFSR`, `ADDFSR` and `SUBFSR` is 0, 1 or 2 (30_encoding.md R122, R129; the constraints of
spec/opcode_table.json). Every other field admits all the values of its width. -/
def Instr.wellFormed : Instr → Bool
  | .lfsr f _ | .addfsr f _ | .subfsr f _ => f != 3
  | .addwf .. | .addwfc .. | .andwf .. | .clrf .. | .comf .. | .cpfseq .. | .cpfsgt ..
  | .cpfslt .. | .decf .. | .decfsz .. | .dcfsnz .. | .incf .. | .incfsz .. | .infsnz ..
  | .iorwf .. | .movf .. | .movff .. | .movwf .. | .mulwf .. | .negf .. | .rlcf ..
  | .rlncf .. | .rrcf .. | .rrncf .. | .setf .. | .subfwb .. | .subwf .. | .subwfb ..
  | .swapf .. | .tstfsz .. | .xorwf .. | .bcf .. | .bsf .. | .btfsc .. | .btfss ..
  | .btg .. | .bc .. | .bn .. | .bnc .. | .bnn .. | .bnov .. | .bnz ..
  | .bov .. | .bra .. | .bz .. | .call .. | .clrwdt .. | .daw .. | .goto ..
  | .nop .. | .nopSecond .. | .pop .. | .push .. | .rcall .. | .reset .. | .retfie ..
  | .retlw .. | .ret .. | .sleep .. | .addlw .. | .andlw .. | .iorlw .. | .movlb ..
  | .movlw .. | .mullw .. | .sublw .. | .xorlw .. | .tblrd .. | .tblrdPostInc .. | .tblrdPostDec ..
  | .tblrdPreInc .. | .tblwt .. | .tblwtPostInc .. | .tblwtPostDec .. | .tblwtPreInc .. | .addulnk .. | .callw ..
  | .movsf .. | .movss .. | .pushl .. | .subulnk .. => true

end Sys2Proof
end

