-- ==== Sys2Proof/Decode.lean ====
section
/-! DEFINITION. The decoder (30_encoding.md R110 to R124, spec/opcode_table.json as data) and, after it, the encoder. The
decoder is total on any bytes and refuses by name. The bit patterns are the spec's general knowledge (D1, log entry 1). -/

namespace Sys2Proof

/-! Fields of a word (R121). -/

/-- Bits 7:0: `f`, the 8-bit literals, the 8-bit branch offset. -/
def Word.low8 (w : Word) : Byte := w.extractLsb' 0 8

/-- Bits 11:0: the 12-bit data addresses and the upper part of a call target. -/
def Word.low12 (w : Word) : DataAddr := w.extractLsb' 0 12

/-- Bit 9: `d`. -/
def Word.destBit (w : Word) : Dest := if w.getLsbD 9 then .f else .w

/-- Bit 8: `a`. -/
def Word.accessBit (w : Word) : Access := if w.getLsbD 8 then .banked else .access

/-- Bits 11:9: `b`. -/
def Word.bitNumber (w : Word) : BitVec 3 := w.extractLsb' 9 3

/-- A row of the opcode table: what the first word must match, whether there is a second word and what it must match,
whether the row needs `XINST = 1`, and the instruction read from the words. -/
structure Row where
  mask : Word
  pattern : Word
  two : Bool
  mask2 : Word
  pattern2 : Word
  extended : Bool
  build : Word → Word → Instr

/-- A one-word row. -/
def row1 (mask pattern : Word) (extended : Bool) (build : Word → Instr) : Row :=
  ⟨mask, pattern, false, 0, 0, extended, fun w _ => build w⟩

/-- A two-word row: the second word has its own mask and pattern (R123). -/
def row2 (mask pattern mask2 pattern2 : Word) (extended : Bool) (build : Word → Word → Instr) : Row :=
  ⟨mask, pattern, true, mask2, pattern2, extended, build⟩

/-- Byte-oriented rows (R113). -/
def byteRows : List Row :=
  [ row1 0xFC00 0x2400 false fun w => .addwf w.low8 w.destBit w.accessBit,
    row1 0xFC00 0x2000 false fun w => .addwfc w.low8 w.destBit w.accessBit,
    row1 0xFC00 0x1400 false fun w => .andwf w.low8 w.destBit w.accessBit,
    row1 0xFE00 0x6A00 false fun w => .clrf w.low8 w.accessBit,
    row1 0xFC00 0x1C00 false fun w => .comf w.low8 w.destBit w.accessBit,
    row1 0xFE00 0x6200 false fun w => .cpfseq w.low8 w.accessBit,
    row1 0xFE00 0x6400 false fun w => .cpfsgt w.low8 w.accessBit,
    row1 0xFE00 0x6000 false fun w => .cpfslt w.low8 w.accessBit,
    row1 0xFC00 0x0400 false fun w => .decf w.low8 w.destBit w.accessBit,
    row1 0xFC00 0x2C00 false fun w => .decfsz w.low8 w.destBit w.accessBit,
    row1 0xFC00 0x4C00 false fun w => .dcfsnz w.low8 w.destBit w.accessBit,
    row1 0xFC00 0x2800 false fun w => .incf w.low8 w.destBit w.accessBit,
    row1 0xFC00 0x3C00 false fun w => .incfsz w.low8 w.destBit w.accessBit,
    row1 0xFC00 0x4800 false fun w => .infsnz w.low8 w.destBit w.accessBit,
    row1 0xFC00 0x1000 false fun w => .iorwf w.low8 w.destBit w.accessBit,
    row1 0xFC00 0x5000 false fun w => .movf w.low8 w.destBit w.accessBit ] ++
  [ row2 0xF000 0xC000 0xF000 0xF000 false fun w v => .movff w.low12 v.low12,
    row1 0xFE00 0x6E00 false fun w => .movwf w.low8 w.accessBit,
    row1 0xFE00 0x0200 false fun w => .mulwf w.low8 w.accessBit,
    row1 0xFE00 0x6C00 false fun w => .negf w.low8 w.accessBit,
    row1 0xFC00 0x3400 false fun w => .rlcf w.low8 w.destBit w.accessBit,
    row1 0xFC00 0x4400 false fun w => .rlncf w.low8 w.destBit w.accessBit,
    row1 0xFC00 0x3000 false fun w => .rrcf w.low8 w.destBit w.accessBit,
    row1 0xFC00 0x4000 false fun w => .rrncf w.low8 w.destBit w.accessBit,
    row1 0xFE00 0x6800 false fun w => .setf w.low8 w.accessBit,
    row1 0xFC00 0x5400 false fun w => .subfwb w.low8 w.destBit w.accessBit,
    row1 0xFC00 0x5C00 false fun w => .subwf w.low8 w.destBit w.accessBit,
    row1 0xFC00 0x5800 false fun w => .subwfb w.low8 w.destBit w.accessBit,
    row1 0xFC00 0x3800 false fun w => .swapf w.low8 w.destBit w.accessBit,
    row1 0xFE00 0x6600 false fun w => .tstfsz w.low8 w.accessBit,
    row1 0xFC00 0x1800 false fun w => .xorwf w.low8 w.destBit w.accessBit ]

/-- Bit-oriented rows (R114). -/
def bitRows : List Row :=
  [ row1 0xF000 0x9000 false fun w => .bcf w.low8 w.bitNumber w.accessBit,
    row1 0xF000 0x8000 false fun w => .bsf w.low8 w.bitNumber w.accessBit,
    row1 0xF000 0xB000 false fun w => .btfsc w.low8 w.bitNumber w.accessBit,
    row1 0xF000 0xA000 false fun w => .btfss w.low8 w.bitNumber w.accessBit,
    row1 0xF000 0x7000 false fun w => .btg w.low8 w.bitNumber w.accessBit ]

/-- Control rows (R115); the last form of NOP is a second word reached on its own (R123, R205). -/
def controlRows : List Row :=
  [ row1 0xFF00 0xE200 false fun w => .bc w.low8,
    row1 0xFF00 0xE600 false fun w => .bn w.low8,
    row1 0xFF00 0xE300 false fun w => .bnc w.low8,
    row1 0xFF00 0xE700 false fun w => .bnn w.low8,
    row1 0xFF00 0xE500 false fun w => .bnov w.low8,
    row1 0xFF00 0xE100 false fun w => .bnz w.low8,
    row1 0xFF00 0xE400 false fun w => .bov w.low8,
    row1 0xF800 0xD000 false fun w => .bra (w.extractLsb' 0 11),
    row1 0xFF00 0xE000 false fun w => .bz w.low8,
    row2 0xFE00 0xEC00 0xF000 0xF000 false fun w v => .call (v.low12 ++ w.low8) (w.getLsbD 8),
    row1 0xFFFF 0x0004 false fun _ => .clrwdt,
    row1 0xFFFF 0x0007 false fun _ => .daw,
    row2 0xFF00 0xEF00 0xF000 0xF000 false fun w v => .goto (v.low12 ++ w.low8),
    row1 0xFFFF 0x0000 false fun _ => .nop,
    row1 0xF000 0xF000 false fun w => .nopSecond w.low12,
    row1 0xFFFF 0x0006 false fun _ => .pop ] ++
  [ row1 0xFFFF 0x0005 false fun _ => .push,
    row1 0xF800 0xD800 false fun w => .rcall (w.extractLsb' 0 11),
    row1 0xFFFF 0x00FF false fun _ => .reset,
    row1 0xFFFE 0x0010 false fun w => .retfie (w.getLsbD 0),
    row1 0xFF00 0x0C00 false fun w => .retlw w.low8,
    row1 0xFFFE 0x0012 false fun w => .ret (w.getLsbD 0),
    row1 0xFFFF 0x0003 false fun _ => .sleep ]

/-- Literal rows (R116). `LFSR` has one row for each FSR number; ff = 3 is reserved (R122). -/
def literalRows : List Row :=
  [ row1 0xFF00 0x0F00 false fun w => .addlw w.low8,
    row1 0xFF00 0x0B00 false fun w => .andlw w.low8,
    row1 0xFF00 0x0900 false fun w => .iorlw w.low8,
    row2 0xFFF0 0xEE00 0xFF00 0xF000 false fun w v => .lfsr (w.extractLsb' 4 2) (w.extractLsb' 0 4 ++ v.low8),
    row2 0xFFF0 0xEE10 0xFF00 0xF000 false fun w v => .lfsr (w.extractLsb' 4 2) (w.extractLsb' 0 4 ++ v.low8),
    row2 0xFFF0 0xEE20 0xFF00 0xF000 false fun w v => .lfsr (w.extractLsb' 4 2) (w.extractLsb' 0 4 ++ v.low8),
    row1 0xFFF0 0x0100 false fun w => .movlb (w.extractLsb' 0 4),
    row1 0xFF00 0x0E00 false fun w => .movlw w.low8,
    row1 0xFF00 0x0D00 false fun w => .mullw w.low8,
    row1 0xFF00 0x0800 false fun w => .sublw w.low8,
    row1 0xFF00 0x0A00 false fun w => .xorlw w.low8 ]

/-- Table rows (R117). -/
def tableRows : List Row :=
  [ row1 0xFFFF 0x0008 false fun _ => .tblrd,
    row1 0xFFFF 0x0009 false fun _ => .tblrdPostInc,
    row1 0xFFFF 0x000A false fun _ => .tblrdPostDec,
    row1 0xFFFF 0x000B false fun _ => .tblrdPreInc,
    row1 0xFFFF 0x000C false fun _ => .tblwt,
    row1 0xFFFF 0x000D false fun _ => .tblwtPostInc,
    row1 0xFFFF 0x000E false fun _ => .tblwtPostDec,
    row1 0xFFFF 0x000F false fun _ => .tblwtPreInc ]

/-- Extended rows (R118). `ADDFSR` and `SUBFSR` have one row for each FSR number; ff = 3 is `ADDULNK`, `SUBULNK`. -/
def extendedRows : List Row :=
  [ row1 0xFFC0 0xE800 true fun w => .addfsr (w.extractLsb' 6 2) (w.extractLsb' 0 6),
    row1 0xFFC0 0xE840 true fun w => .addfsr (w.extractLsb' 6 2) (w.extractLsb' 0 6),
    row1 0xFFC0 0xE880 true fun w => .addfsr (w.extractLsb' 6 2) (w.extractLsb' 0 6),
    row1 0xFFC0 0xE8C0 true fun w => .addulnk (w.extractLsb' 0 6),
    row1 0xFFFF 0x0014 true fun _ => .callw,
    row2 0xFF80 0xEB00 0xF000 0xF000 true fun w v => .movsf (w.extractLsb' 0 7) v.low12,
    row2 0xFF80 0xEB80 0xF000 0xF000 true fun w v => .movss (w.extractLsb' 0 7) (v.extractLsb' 0 7),
    row1 0xFF00 0xEA00 true fun w => .pushl w.low8,
    row1 0xFFC0 0xE900 true fun w => .subfsr (w.extractLsb' 6 2) (w.extractLsb' 0 6),
    row1 0xFFC0 0xE940 true fun w => .subfsr (w.extractLsb' 6 2) (w.extractLsb' 0 6),
    row1 0xFFC0 0xE980 true fun w => .subfsr (w.extractLsb' 6 2) (w.extractLsb' 0 6),
    row1 0xFFC0 0xE9C0 true fun w => .subulnk (w.extractLsb' 0 6) ]

/-- The opcode table (R119): at most one row matches a word. -/
def opcodeRows : List Row :=
  byteRows ++ bitRows ++ controlRows ++ literalRows ++ tableRows ++ extendedRows

/-- A word matches a row when its fixed bits are the row's (R120). -/
def Row.fits (r : Row) (w : Word) : Bool := w &&& r.mask == r.pattern

/-- The row a first word selects, if any (R120). -/
def lookupRow (w0 : Word) : Option Row := opcodeRows.find? (·.fits w0)

/-- Why words are no instruction. -/
inductive DecodeError where
  /-- No row matches the first word (R122). -/
  | reserved (w0 : Word)
  /-- An extended row with `XINST = 0` (R124). -/
  | extendedDisabled (w0 : Word)
  /-- The second word has not the form the row asks for (R123). -/
  | badSecondWord
  /-- Fewer bytes than the instruction is long. -/
  | truncated
deriving DecidableEq, Repr

/-- First stage of decoding: the row of the first word (R120, R122, R124). -/
def decodeFirst (xinst : Bool) (w0 : Word) : Except DecodeError Row :=
  match lookupRow w0 with
  | none => .error (.reserved w0)
  | some r => if r.extended && !xinst then .error (.extendedDisabled w0) else .ok r

/-- Second stage: the instruction, once the second word, if the row has one, is known (R121, R123). -/
def decodeSecond (r : Row) (w0 w1 : Word) : Except DecodeError Instr :=
  if r.two then
    if w1 &&& r.mask2 == r.pattern2 then .ok (r.build w0 w1) else .error .badSecondWord
  else .ok (r.build w0 0)

/-- Decoding from two words; a one-word instruction does not look at the second. -/
def decodeWords (xinst : Bool) (w0 w1 : Word) : Except DecodeError Instr :=
  match decodeFirst xinst w0 with
  | .error e => .error e
  | .ok r => decodeSecond r w0 w1

/-- A word from its two bytes in memory order, low byte first (20_memory.md R71). -/
def wordOfBytes (lo hi : Byte) : Word := hi ++ lo

/-- The bytes of a word in memory order (20_memory.md R71). -/
def bytesOfWord (w : Word) : List Byte := [w.low8, w.extractLsb' 8 8]

/-- Decoding from bytes: the instruction at the head of the list, and the bytes after it. Total on any list. -/
def decodeBytes (xinst : Bool) : List Byte → Except DecodeError (Instr × List Byte)
  | b0 :: b1 :: rest =>
    match decodeFirst xinst (wordOfBytes b0 b1) with
    | .error e => .error e
    | .ok r =>
      if r.two then
        match rest with
        | b2 :: b3 :: rest' =>
          match decodeSecond r (wordOfBytes b0 b1) (wordOfBytes b2 b3) with
          | .error e => .error e
          | .ok i => .ok (i, rest')
        | _ => .error .truncated
      else
        match decodeSecond r (wordOfBytes b0 b1) 0 with
        | .error e => .error e
        | .ok i => .ok (i, rest)
  | _ => .error .truncated

/-- The four bytes, in memory order, of an instruction whose bits are `w` numbered as spec/opcode_table.json numbers
them; bits from `nbits` on are 0. -/
def tableWordBytes (nbits w : Nat) : List Byte :=
  let v := w % 2 ^ nbits
  [BitVec.ofNat 8 v, BitVec.ofNat 8 (v / 2 ^ 8), BitVec.ofNat 8 (v / 2 ^ 16), BitVec.ofNat 8 (v / 2 ^ 24)]

/-- The instruction the decoder reads from an instruction whose bits are `w`, with the extended set enabled. -/
def decodeTableWord (nbits w : Nat) : Option Instr :=
  match decodeBytes true (tableWordBytes nbits w) with
  | .ok (i, _) => some i
  | .error _ => none

/-! The encoder: the words of an instruction, from the same tables (R111, R113 to R118, R121). -/

/-- The bit of `d` (R12). -/
def Dest.bit : Dest → BitVec 1
  | .w => 0
  | .f => 1

/-- The bit of `a` (R12). -/
def Access.bit : Access → BitVec 1
  | .access => 0
  | .banked => 1

/-- The bit of `s`. -/
def fastBit (s : Bool) : BitVec 1 := BitVec.ofBool s

/-- BYTE_FDA (R111). -/
def wordFDA (op : BitVec 6) (f : Byte) (d : Dest) (a : Access) : Word := op ++ d.bit ++ a.bit ++ f

/-- BYTE_FA (R111). -/
def wordFA (op : BitVec 7) (f : Byte) (a : Access) : Word := op ++ a.bit ++ f

/-- BIT_FBA (R111). -/
def wordFBA (op : BitVec 4) (f : Byte) (b : BitVec 3) (a : Access) : Word := op ++ b ++ a.bit ++ f

/-- A first word of eight fixed bits and an 8-bit field: BR8 and LIT8 (R111). -/
def wordOp8 (op : Byte) (k : Byte) : Word := op ++ k

/-- BR11 (R111). -/
def wordBr11 (op : BitVec 5) (n : BitVec 11) : Word := op ++ n

/-- FSR_K6 and ULNK_K6 (R111). -/
def wordFsrK6 (op : Byte) (f : BitVec 2) (k : BitVec 6) : Word := op ++ f ++ k

/-- A second word of `1111` and twelve bits (R111, R123). -/
def wordSecond (t : BitVec 12) : Word := 0b1111#4 ++ t

/-- The words of an instruction: the first, and the second where there is one. -/
def encode : Instr → List Word
  | .addwf f d a => [wordFDA 0b001001#6 f d a]
  | .addwfc f d a => [wordFDA 0b001000#6 f d a]
  | .andwf f d a => [wordFDA 0b000101#6 f d a]
  | .clrf f a => [wordFA 0b0110101#7 f a]
  | .comf f d a => [wordFDA 0b000111#6 f d a]
  | .cpfseq f a => [wordFA 0b0110001#7 f a]
  | .cpfsgt f a => [wordFA 0b0110010#7 f a]
  | .cpfslt f a => [wordFA 0b0110000#7 f a]
  | .decf f d a => [wordFDA 0b000001#6 f d a]
  | .decfsz f d a => [wordFDA 0b001011#6 f d a]
  | .dcfsnz f d a => [wordFDA 0b010011#6 f d a]
  | .incf f d a => [wordFDA 0b001010#6 f d a]
  | .incfsz f d a => [wordFDA 0b001111#6 f d a]
  | .infsnz f d a => [wordFDA 0b010010#6 f d a]
  | .iorwf f d a => [wordFDA 0b000100#6 f d a]
  | .movf f d a => [wordFDA 0b010100#6 f d a]
  | .movff fs fd => [0b1100#4 ++ fs, wordSecond fd]
  | .movwf f a => [wordFA 0b0110111#7 f a]
  | .mulwf f a => [wordFA 0b0000001#7 f a]
  | .negf f a => [wordFA 0b0110110#7 f a]
  | .rlcf f d a => [wordFDA 0b001101#6 f d a]
  | .rlncf f d a => [wordFDA 0b010001#6 f d a]
  | .rrcf f d a => [wordFDA 0b001100#6 f d a]
  | .rrncf f d a => [wordFDA 0b010000#6 f d a]
  | .setf f a => [wordFA 0b0110100#7 f a]
  | .subfwb f d a => [wordFDA 0b010101#6 f d a]
  | .subwf f d a => [wordFDA 0b010111#6 f d a]
  | .subwfb f d a => [wordFDA 0b010110#6 f d a]
  | .swapf f d a => [wordFDA 0b001110#6 f d a]
  | .tstfsz f a => [wordFA 0b0110011#7 f a]
  | .xorwf f d a => [wordFDA 0b000110#6 f d a]
  | .bcf f b a => [wordFBA 0b1001#4 f b a]
  | .bsf f b a => [wordFBA 0b1000#4 f b a]
  | .btfsc f b a => [wordFBA 0b1011#4 f b a]
  | .btfss f b a => [wordFBA 0b1010#4 f b a]
  | .btg f b a => [wordFBA 0b0111#4 f b a]
  | .bc n => [wordOp8 0b11100010#8 n]
  | .bn n => [wordOp8 0b11100110#8 n]
  | .bnc n => [wordOp8 0b11100011#8 n]
  | .bnn n => [wordOp8 0b11100111#8 n]
  | .bnov n => [wordOp8 0b11100101#8 n]
  | .bnz n => [wordOp8 0b11100001#8 n]
  | .bov n => [wordOp8 0b11100100#8 n]
  | .bra n => [wordBr11 0b11010#5 n]
  | .bz n => [wordOp8 0b11100000#8 n]
  | .call k s => [0b1110110#7 ++ fastBit s ++ k.extractLsb' 0 8, wordSecond (k.extractLsb' 8 12)]
  | .clrwdt => [0b0000000000000100#16]
  | .daw => [0b0000000000000111#16]
  | .goto k => [wordOp8 0b11101111#8 (k.extractLsb' 0 8), wordSecond (k.extractLsb' 8 12)]
  | .nop => [0b0000000000000000#16]
  | .nopSecond x => [wordSecond x]
  | .pop => [0b0000000000000110#16]
  | .push => [0b0000000000000101#16]
  | .rcall n => [wordBr11 0b11011#5 n]
  | .reset => [0b0000000011111111#16]
  | .retfie s => [0b000000000001000#15 ++ fastBit s]
  | .retlw k => [wordOp8 0b00001100#8 k]
  | .ret s => [0b000000000001001#15 ++ fastBit s]
  | .sleep => [0b0000000000000011#16]
  | .addlw k => [wordOp8 0b00001111#8 k]
  | .andlw k => [wordOp8 0b00001011#8 k]
  | .iorlw k => [wordOp8 0b00001001#8 k]
  | .lfsr f k => [0b1110111000#10 ++ f ++ k.extractLsb' 8 4, wordOp8 0b11110000#8 (k.extractLsb' 0 8)]
  | .movlb k => [0b000000010000#12 ++ k]
  | .movlw k => [wordOp8 0b00001110#8 k]
  | .mullw k => [wordOp8 0b00001101#8 k]
  | .sublw k => [wordOp8 0b00001000#8 k]
  | .xorlw k => [wordOp8 0b00001010#8 k]
  | .tblrd => [0b0000000000001000#16]
  | .tblrdPostInc => [0b0000000000001001#16]
  | .tblrdPostDec => [0b0000000000001010#16]
  | .tblrdPreInc => [0b0000000000001011#16]
  | .tblwt => [0b0000000000001100#16]
  | .tblwtPostInc => [0b0000000000001101#16]
  | .tblwtPostDec => [0b0000000000001110#16]
  | .tblwtPreInc => [0b0000000000001111#16]
  | .addfsr f k => [wordFsrK6 0b11101000#8 f k]
  | .addulnk k => [wordFsrK6 0b11101000#8 0b11#2 k]
  | .callw => [0b0000000000010100#16]
  | .movsf zs fd => [0b111010110#9 ++ zs, wordSecond fd]
  | .movss zs zd => [0b111010111#9 ++ zs, wordSecond (0b00000#5 ++ zd)]
  | .pushl k => [wordOp8 0b11101010#8 k]
  | .subfsr f k => [wordFsrK6 0b11101001#8 f k]
  | .subulnk k => [wordFsrK6 0b11101001#8 0b11#2 k]

/-- The bytes of an instruction in memory order. -/
def encodeBytes (i : Instr) : List Byte := (encode i).flatMap bytesOfWord

/-- The first word of an instruction: what `ExtendedDisabled` and `ReservedEncoding` name. -/
def firstWord (i : Instr) : Word := (encode i).headD 0

end Sys2Proof
end

