-- ==== Sys2Proof/Config.lean ====
section
/-! DEFINITION. What is fixed for a device or a launch (00_scope.md R8, 10_state.md R47, 92_eei_decisions.md D2), and
the free values: constants with no body, about which nothing can be proved. -/

namespace Sys2Proof

/-- The parameters of the device and its configuration bits (00_scope.md R8). The defaults are the reference device,
PIC18F14K22, and the admitted launch's configuration bits. `State` holds one of these, constant during a run (R47). -/
structure Config where
  /-- `PROG_BYTES`: implemented program memory, bytes from address 0. -/
  progBytes : Nat := 0x4000
  /-- `RAM_BYTES`: implemented general-purpose RAM, bytes from data address 0x000. -/
  ramBytes : Nat := 0x200
  /-- `ACCESS_SPLIT`: the first `f` that the Access Bank maps to bank 15 (20_memory.md R77). -/
  accessSplit : Byte := 0x60
  /-- The first address of the special function registers (10_state.md R50: 0xF53 on the reference device). -/
  sfrBase : DataAddr := 0xF53
  /-- `STACK_DEPTH`: entries of the return stack, at most the 31 that five bits of SP can number (10_state.md R37). -/
  stackDepth : BitVec 5 := 31
  /-- `HOLD_BYTES`: the number of table-write holding latches (10_state.md R44). -/
  holdBytes : Nat := 16
  /-- `XINST`: extended instruction set and indexed literal offset addressing enabled. -/
  xinst : Bool := false
  /-- `STVREN`: return-stack overflow or underflow resets the device (10_state.md R40). -/
  stvren : Bool := true
  /-- `WDTEN`: watchdog enabled; the admitted launch takes 0 (D21). -/
  wdten : Bool := false
  /-- THE MODEL'S OWN FIELD (DESIGN CHOICE, log entry 4). `true`: where a rule deliberately narrows the hardware's
  effect to a model fault (R38, R39, R51, R52, R74, R84, R87), that fault is raised. `false`: the effect the same rules give
  the hardware is taken. -/
  admitted : Bool := false
deriving DecidableEq, Repr

/-- The reset vector (20_memory.md R91). -/
def Config.resetVector : ProgAddr := 0x000000

/-- The high-priority interrupt vector, the only one with IPEN = 0 (20_memory.md R91). -/
def Config.highVector : ProgAddr := 0x000008

/-- The low-priority interrupt vector (20_memory.md R91). -/
def Config.lowVector : ProgAddr := 0x000018

/-- FREE VALUE (log entry 3): the byte the RAM cell at a data address powered up with (10_state.md R52, U1). -/
opaque Config.powerUpByte : Nat → Byte

/-- FREE VALUE (log entry 10): whether a read of PCL inside the two-word instruction whose successor is at this address
sees `pc0 + 4` rather than `pc0 + 2` (20_memory.md R84, D23). -/
opaque Config.pclReadsFourAhead : Nat → Bool

end Sys2Proof
end

