-- ==== Sys2Proof/Machine/State.lean ====
section
/-! DEFINITION. The state of the machine: everything 10_state.md gives it, as plain data; the reasons a step can stop; the
state after a power-on reset. -/

namespace Sys2Proof.Machine

/-- Sparse memory: the cells that hold a byte, addresses strictly rising (`Memory.wf`). A cell that is not listed holds
no value; what a read of one answers is said where each memory is read (`ramByte`, `progByte`). -/
abbrev Memory := List Host.Cell

/-- The canonical form: addresses strictly rising. (An unlisted cell holds no value, so no entry can equal it.) -/
abbrev Memory.wf (m : Memory) : Prop := m.Pairwise fun c d => c.1 < d.1

/-- The number of an indirect-addressing register (10_state.md R32). -/
inductive FsrNum where
  | f0
  | f1
  | f2
deriving DecidableEq, Repr

/-- The arithmetic flags of STATUS (10_state.md R22). -/
structure Flags where
  n : Bool
  ov : Bool
  z : Bool
  dc : Bool
  c : Bool
deriving DecidableEq, Repr

/-- The bits of RCON (10_state.md R45). -/
structure Rcon where
  ipen : Bool
  /-- Opaque (power supervision). -/
  sboren : Bool
  ri : Bool
  /-- TO: time-out status, active low; not writable by software. -/
  timeOut : Bool
  /-- PD: power-down status, active low; not writable by software. -/
  powerDown : Bool
  /-- Opaque (power supervision). -/
  por : Bool
  /-- Opaque (power supervision). -/
  bor : Bool
deriving DecidableEq, Repr

/-- The fast register stack: the one-deep shadows of WREG, STATUS and BSR (10_state.md R41). -/
structure Shadow where
  ws : Byte
  statuss : Flags
  bsrs : BitVec 4
deriving DecidableEq, Repr

/-- The run state of the core (10_state.md R49). -/
inductive RunState where
  | running
  | sleeping
deriving DecidableEq, Repr

/-- Interrupt priority (60_exceptions.md R283). -/
inductive Priority where
  | high
  | low
deriving DecidableEq, Repr

/-- The kinds of device reset (70_reset_and_hazards.md R310). -/
inductive ResetKind where
  /-- The `RESET` instruction. -/
  | software
  /-- The master-clear pin. -/
  | masterClear
  /-- A watchdog time-out while the core runs. -/
  | watchdog
  /-- Return-stack full or underflow with `STVREN = 1`. -/
  | stack
  /-- Power-on or brown-out (10_state.md R53, first column). -/
  | powerOn
deriving DecidableEq, Repr

/-- What the core sees of an interrupt source (60_exceptions.md R283): which register its enable bit is in, and its
priority bit. -/
structure Source where
  /-- Its enable is in a PIE register, not in INTCON. -/
  peripheral : Bool
  priority : Priority
deriving DecidableEq, Repr

/-- Which sources request an interrupt: for each kind, whether at least one source of it has its flag and its enable
set (R283). Several of one kind cause one entry (R289(d)). -/
structure Requests where
  intconHigh : Bool := false
  intconLow : Bool := false
  pieHigh : Bool := false
  pieLow : Bool := false
deriving DecidableEq, Repr

/-- A move of the environment at an instruction boundary (60_exceptions.md R285, R296, R297, R303). -/
inductive EnvMove where
  /-- A source of this kind begins to request an interrupt. -/
  | request (src : Source)
  /-- No source of this kind requests an interrupt any more: its flag or its enable is cleared. -/
  | withdraw (src : Source)
  /-- The watchdog times out. -/
  | wdtTimeout
  /-- The reset pin is pulled. -/
  | masterClear
  /-- Power-on or brown-out. -/
  | powerOn
deriving DecidableEq, Repr

/-- The state of the machine. The rule that names each field stands beside it; INVENTORY.md lists the reset values. -/
structure State where
  /-- Program counter, a byte address (R34); every write goes through `State.setPc`, which keeps bit 0 zero. -/
  pc : ProgAddr
  /-- Working register (R20). -/
  wreg : Byte
  /-- N, OV, Z, DC, C (R22). -/
  flags : Flags
  /-- Bank select register (R31). -/
  bsr : BitVec 4
  /-- Indirect-addressing registers (R32). -/
  fsr0 : DataAddr
  fsr1 : DataAddr
  fsr2 : DataAddr
  /-- Product register pair (R33). -/
  prodh : Byte
  prodl : Byte
  /-- Table pointer (R42). -/
  tblptr : TblAddr
  /-- Table latch (R43). -/
  tablat : Byte
  /-- Latches of the upper bytes of pc (R35). -/
  pclath : Byte
  pclatu : BitVec 5
  /-- Return stack, entry k of the spec (1..31) at index k - 1 (R37). -/
  stack : Vector ProgAddr 31
  /-- Stack pointer, STKPTR[4:0]; 0 is empty (R38). -/
  sp : BitVec 5
  /-- STKPTR[7] and STKPTR[6] (R38). -/
  stkful : Bool
  stkunf : Bool
  /-- Fast register stack (R41). -/
  shadow : Shadow
  /-- INTCON[7] and INTCON[6] (R46). -/
  gieh : Bool
  giel : Bool
  /-- Reset control register (R45). -/
  rcon : Rcon
  /-- General-purpose RAM, by data address (R75). -/
  ram : Memory
  /-- Program memory, by byte address: the loaded image (R70, R95). -/
  prog : Memory
  /-- Table-write holding latches, by index (R44). -/
  hold : Memory
  /-- Watchdog counter and postscaler (R48). -/
  wdtCounter : Nat
  wdtPostscaler : Nat
  /-- Run state (R49). -/
  runState : RunState
  /-- The interrupt requests that stand (60_exceptions.md R283, R287, R291; log entry 12): what the flag and enable bits of the
  sources, out of scope themselves, show the core. -/
  requests : Requests
  /-- THE MODEL'S OWN FIELD (log entry 35): the instruction executed last passed over the next one, so that no interrupt
  falls before both words of that one are passed (60_exceptions.md R286). -/
  skipped : Bool
  /-- Device parameters and configuration bits, constant during a run (R8, R47). -/
  cfg : Config
  /-- THE MODEL'S OWN FIELD (log entry 11): the environment's moves to come, for each instruction boundary the list of all
  that are made there; no entry left means that no agent ever moves again. -/
  env : List (List EnvMove)
deriving DecidableEq, Repr

/-- The reasons a step can stop: the closed list of model faults of 60_exceptions.md R281. A fault gives the state no
successor (00_scope.md R11), so every one is SAFE: nothing can be proved through it. -/
inductive Fault where
  /-- Raised by `ramByte` (admitted model only): a RAM byte nothing has written is read (R52). Safe. -/
  | unwrittenRead
  /-- Raised by `storeWithFlags` (admitted model only): a flag-writing instruction has STATUS as destination (R51). Safe. -/
  | statusDestination
  /-- Raised by `sfrWrite`: a write of INTCON would set any of bits 5:3 (R46). Safe. -/
  | outOfScopeSfr
  /-- Raised by `sfrWrite` (admitted model only): a write of STKPTR, or of TOSx while SP = 0 (R38). Safe. -/
  | stackRegisterWrite
  /-- Raised by `pushThen` (admitted model only): a push with SP = STACK_DEPTH (R39). Safe. -/
  | stackOverflow
  /-- Raised by `popThen` (admitted model only): a pop with SP = 0 (R39). Safe. -/
  | stackUnderflow
  /-- Raised by `resolveDirect`: a peripheral register's address, or, in the admitted model, unimplemented data
  memory (R87). Safe. -/
  | outOfScopeData (a : DataAddr)
  /-- Raised by `resolveOperand` and `execPushl`: an FSR2-based operand lands on a virtual register (R79, R267). Safe. -/
  | virtualViaFsr2
  /-- Raised by `pclRead` (admitted model only): PCL is read inside a two-word instruction (R84). Safe. -/
  | pclInTwoWord
  /-- Raised by `moveWrite`: PCL, TOSU, TOSH or TOSL is the destination of MOVFF, MOVSF or MOVSS (R84, R85). Safe. -/
  | pclOrTosDestination
  /-- Raised by `countSkip`: PCL is the `d = 1` destination of a count-and-skip instruction (R84). Safe. -/
  | pclSkipDestination
  /-- Raised by `progByte` (admitted model only): a fetch or table read outside the loaded image (R74). Safe. -/
  | outsideProgramImage (a : ProgAddr)
  /-- Raised by `tableRead` and `tableWrite`: a table access with TBLPTR[21] = 1 (R246). Safe. -/
  | tableOutsideProgramSpace
  /-- Raised by `fetch` and `execLfsr`: the first word matches no row of the opcode table (R122). Safe. -/
  | reservedEncoding (w0 : Word)
  /-- Raised by `fetch`: a second word without the form its row asks for (R123). Safe. -/
  | badSecondWord
  /-- Raised by `fetch` and the extended meanings: an extended instruction with `XINST = 0` (R124, R260). Safe. -/
  | extendedDisabled (w0 : Word)
deriving DecidableEq, Repr

/-- The reasons an instruction is refused. -/
inductive Refusal where
  /-- An instruction with no meaning in the model, by its mnemonic; raised by an arm of `exec`, and by none in this
  model. Safe. -/
  | notModelled (mnemonic : String)
  /-- A term that no instruction word decodes to (`ADDFSR`, `SUBFSR` with FSR number 3); raised by `execAddfsr` and
  `execSubfsr`, never by `step`. Safe. -/
  | illFormed
deriving DecidableEq, Repr

/-- The answer of a meaning or a step. -/
abbrev Result := Host.Outcome State Fault Refusal

/-- The state after a power-on reset (10_state.md R53, first column; 70_reset_and_hazards.md R313), the configuration of
the reference device, no program loaded, no interrupt requested (log entry 12) and no environment move to come. The registers whose power-on value the spec
leaves unknown hold 0: DESIGN CHOICE, log entry 2 (WREG, the flags, FSRnL, PRODH, PRODL, the stack entries, the shadows),
and SBOREN 0, log entry 22. -/
def State.reset : State where
  pc := Config.resetVector
  wreg := 0
  flags := ⟨false, false, false, false, false⟩
  bsr := 0
  fsr0 := 0
  fsr1 := 0
  fsr2 := 0
  prodh := 0
  prodl := 0
  tblptr := 0
  tablat := 0
  pclath := 0
  pclatu := 0
  stack := Vector.replicate 31 0
  sp := 0
  stkful := false
  stkunf := false
  shadow := ⟨0, ⟨false, false, false, false, false⟩, 0⟩
  gieh := false
  giel := false
  rcon := {
    ipen := false, sboren := false, ri := true, timeOut := true, powerDown := true, por := false, bor := false }
  ram := []
  prog := []
  hold := []
  wdtCounter := 0
  wdtPostscaler := 0
  runState := .running
  requests := {}
  skipped := false
  cfg := {}
  env := []

end Sys2Proof.Machine
end

