-- ==== Sys2Proof/Machine/Ops.lean ====
section
/-! DEFINITION. The named operations over memory and registers: sparse memory, RAM and program bytes, pc, FSRs, the return
stack, the fast register stack, device resets, interrupt requests, entry and the return from it. -/

namespace Sys2Proof.Machine

/-! ### Faults and results -/

/-- Go on with the value of an operation, or stop with its fault. -/
def andThen {α : Type} (x : Except Fault α) (k : α → Result) : Result :=
  match x with
  | .error e => .fault e
  | .ok v => k v

/-- The result of an operation that ends an instruction. -/
def finish (x : Except Fault State) : Result := andThen x .next

/-! ### Sparse memory -/

/-- The byte a cell holds, if any. -/
def Memory.read : Memory → Nat → Option Byte
  | [], _ => none
  | (b, x) :: m, a => if a = b then some x else Memory.read m a

/-- Put a byte in a cell, keeping the canonical form. -/
def Memory.write : Memory → Nat → Byte → Memory
  | [], a, v => [(a, v)]
  | (b, x) :: m, a, v =>
    if a < b then (a, v) :: (b, x) :: m
    else if a = b then (a, v) :: m
    else (b, x) :: Memory.write m a v

/-- Put bytes in consecutive cells of the program space, modulo 2^21. -/
def Memory.writeProg (m : Memory) (a : ProgAddr) : List Byte → Memory
  | [] => m
  | v :: vs => Memory.writeProg (m.write a.toNat v) (a + 1) vs

/-- The byte of RAM at an address. A byte nothing has written is `UnwrittenRead` in the admitted model (R52, R85) and a
free value otherwise (log entry 3). -/
def ramByte (s : State) (a : DataAddr) : Except Fault Byte :=
  match s.ram.read a.toNat with
  | some v => .ok v
  | none => if s.cfg.admitted then .error .unwrittenRead else .ok (Config.powerUpByte a.toNat)

/-- The byte of program memory at an address (20_memory.md R71). Outside the loaded image: `OutsideProgramImage` in the
admitted model (R74); otherwise erased flash, 0xFF (42_control.md R204, U10), below `PROG_BYTES`, and unimplemented memory,
0x00 (R74, R91), from there on (log entry 9). -/
def progByte (s : State) (a : ProgAddr) : Except Fault Byte :=
  match s.prog.read a.toNat with
  | some v => .ok v
  | none =>
    if s.cfg.admitted then .error (.outsideProgramImage a)
    else .ok (if a.toNat < s.cfg.progBytes then 0xFF else 0x00)

/-- `ProgRead(a, 2)`: the little-endian word at an address (R71). -/
def progWord (s : State) (a : ProgAddr) : Except Fault Word :=
  match progByte s a with
  | .error e => .error e
  | .ok lo =>
    match progByte s (a + 1) with
    | .error e => .error e
    | .ok hi => .ok (wordOfBytes lo hi)

/-! ### Program counter -/

/-- A program address with bit 0 cleared: what pc can hold (10_state.md R34, 20_memory.md R72). -/
def evenAddr (a : ProgAddr) : ProgAddr := a &&& 0x1FFFFE

/-- Every write of pc: bit 0 is hardwired 0 (R34). -/
def State.setPc (s : State) (a : ProgAddr) : State := { s with pc := evenAddr a }

/-- `pc <- pc0 + 2` or `pc <- pc0 + 4`: move past the instruction's words, modulo 2^21 (R36). -/
def State.advance (s : State) (bytes : ProgAddr) : State := s.setPc (s.pc + bytes)

/-- `Skip()` when a condition holds (40_byte_oriented.md R141): pass over the next instruction word. -/
def State.skipIf (s : State) (b : Bool) : State := { s.setPc (if b then s.pc + 2 else s.pc) with skipped := b }

/-- `RelTarget(n)` for the instruction at `pc0`, `n` its sign-extended word offset (42_control.md R190). -/
def relTarget (pc0 : ProgAddr) {w : Nat} (n : BitVec w) : ProgAddr := pc0 + 2 + 2 * n.signExtend 21

/-- `AbsTarget(k)`: a 20-bit word address as a byte address (42_control.md R190). -/
def absTarget (k : BitVec 20) : ProgAddr := k ++ 0#1

/-- The address PCLATU, PCLATH and a low byte make (10_state.md R35, 42_control.md R264). -/
def State.latchedTarget (s : State) (low : Byte) : ProgAddr := s.pclatu ++ s.pclath ++ low

/-! ### File select registers -/

/-- `FSR(i)` (00_scope.md R10). -/
def State.fsr (s : State) : FsrNum → DataAddr
  | .f0 => s.fsr0
  | .f1 => s.fsr1
  | .f2 => s.fsr2

/-- Write `FSR(i)`. -/
def State.setFsr (s : State) (n : FsrNum) (v : DataAddr) : State :=
  match n with
  | .f0 => { s with fsr0 := v }
  | .f1 => { s with fsr1 := v }
  | .f2 => { s with fsr2 := v }

/-- The FSR an instruction's two-bit field names; 3 names none (30_encoding.md R122). -/
def fsrNum (f : BitVec 2) : Option FsrNum :=
  if f = 0 then some .f0 else if f = 1 then some .f1 else if f = 2 then some .f2 else none

/-! ### Device resets -/

/-- The register values every reset other than power-on leaves (70_reset_and_hazards.md R311; 10_state.md R53, second
column). No source's enable is left set, so none requests an interrupt (log entry 12). What is not named is unchanged. -/
def clearedByReset (s : State) : State :=
  { s with
    pc := Config.resetVector
    sp := 0
    pclatu := 0
    pclath := 0
    tblptr := 0
    tablat := 0
    bsr := 0
    fsr0 := s.fsr0 &&& 0x0FF
    fsr1 := s.fsr1 &&& 0x0FF
    fsr2 := s.fsr2 &&& 0x0FF
    gieh := false
    giel := false
    rcon := { s.rcon with ipen := false }
    hold := []
    wdtCounter := 0
    wdtPostscaler := 0
    runState := .running
    requests := {}
    skipped := false }

/-- A device reset (R310, R311, R313): RI is cleared only by the `RESET` instruction, TO only by a watchdog reset; a
power-on reset is the first column of R53, with the program image and the configuration as they were programmed. -/
def deviceReset (k : ResetKind) (s : State) : State :=
  match k with
  | .software => { clearedByReset s with rcon := { s.rcon with ipen := false, ri := false } }
  | .masterClear => clearedByReset s
  | .stack => clearedByReset s
  | .watchdog => { clearedByReset s with rcon := { s.rcon with ipen := false, timeOut := false } }
  | .powerOn => { State.reset with prog := s.prog, cfg := s.cfg, env := s.env }

/-! ### Return stack -/

/-- The entry SP points to; 0 when the stack is empty (10_state.md R38). -/
def State.tos (s : State) : ProgAddr :=
  if s.sp = 0 then 0 else s.stack[s.sp.toNat - 1]?.getD 0

/-- Replace entry SP; nothing to replace when the stack is empty. -/
def State.setTos (s : State) (v : ProgAddr) : State :=
  if s.sp = 0 then s else { s with stack := s.stack.setIfInBounds (s.sp.toNat - 1) v }

/-- The stack after a push that finds room: SP one higher, the value in the new top entry, STKFUL set when that makes
the stack full (R38, R39). -/
def State.pushed (s : State) (v : ProgAddr) : State :=
  let t := { s with sp := s.sp + 1, stack := s.stack.setIfInBounds s.sp.toNat v }
  if t.sp = s.cfg.stackDepth then { t with stkful := true } else t

/-- `Push(v)` and then `k`. With SP = `STACK_DEPTH` (or above it, where only a write of STKPTR leads): `StackOverflow` in the
admitted model (R39); otherwise the entry is not overwritten and STKFUL is set (R40). With `STVREN = 1` a push that makes
or finds the stack full resets the device, and `k` does not happen (R40, log entry 5). -/
def pushThen (s : State) (v : ProgAddr) (k : State → Result) : Result :=
  if s.cfg.stackDepth ≤ s.sp then
    if s.cfg.admitted then .fault .stackOverflow
    else if s.cfg.stvren then .next (deviceReset .stack { s with stkful := true })
    else k { s with stkful := true }
  else
    let t := s.pushed v
    if !s.cfg.admitted && s.cfg.stvren && decide (t.sp = s.cfg.stackDepth) then .next (deviceReset .stack t)
    else k t

/-- `Pop()` and then `k` on the value popped. With SP = 0: `StackUnderflow` in the admitted model (R39); otherwise STKUNF
is set, and the device resets (`STVREN = 1`) or the value is 0, pc is loaded with 0 and SP stays 0 (R40, 60_exceptions.md
R281; log entry 5). -/
def popThen (s : State) (k : ProgAddr → State → Result) : Result :=
  if s.sp = 0 then
    if s.cfg.admitted then .fault .stackUnderflow
    else if s.cfg.stvren then .next (deviceReset .stack { s with stkunf := true })
    else k 0 ({ s with stkunf := true }.setPc 0)
  else k s.tos { s with sp := s.sp - 1 }

/-! ### Fast register stack -/

/-- WS, STATUSS and BSRS take WREG, STATUS and BSR (10_state.md R41). -/
def State.saveShadow (s : State) : State := { s with shadow := ⟨s.wreg, s.flags, s.bsr⟩ }

/-- WREG, STATUS and BSR take WS, STATUSS and BSRS (R41). -/
def State.restoreShadow (s : State) : State :=
  { s with wreg := s.shadow.ws, flags := s.shadow.statuss, bsr := s.shadow.bsrs }

/-- The saving or restoring an operand `s` selects. -/
def State.saveShadowIf (s : State) (fast : Bool) : State := if fast then s.saveShadow else s

/-- See `State.saveShadowIf`. -/
def State.restoreShadowIf (s : State) (fast : Bool) : State := if fast then s.restoreShadow else s

/-! ### Interrupts: entry and return -/

/-- Every kind of source there is. -/
def Source.all : List Source := [⟨false, .high⟩, ⟨false, .low⟩, ⟨true, .high⟩, ⟨true, .low⟩]

/-- Whether a source of this kind requests an interrupt. -/
def Requests.has (r : Requests) (src : Source) : Bool :=
  match src with
  | ⟨false, .high⟩ => r.intconHigh
  | ⟨false, .low⟩ => r.intconLow
  | ⟨true, .high⟩ => r.pieHigh
  | ⟨true, .low⟩ => r.pieLow

/-- The requests once those of one kind are made or withdrawn. -/
def Requests.set (r : Requests) (src : Source) (b : Bool) : Requests :=
  match src with
  | ⟨false, .high⟩ => { r with intconHigh := b }
  | ⟨false, .low⟩ => { r with intconLow := b }
  | ⟨true, .high⟩ => { r with pieHigh := b }
  | ⟨true, .low⟩ => { r with pieLow := b }

/-- The requests after the moves of a boundary. -/
def Requests.after (r : Requests) : List EnvMove → Requests
  | [] => r
  | .request src :: ms => Requests.after (r.set src true) ms
  | .withdraw src :: ms => Requests.after (r.set src false) ms
  | _ :: ms => Requests.after r ms

/-- Whether a source's request passes the global gates (60_exceptions.md R283). With IPEN = 0 bit 6 of INTCON is PEIE and
gates the peripheral sources; with IPEN = 1 it is GIEL and gates those of low priority. -/
def gateOpen (s : State) (src : Source) : Bool :=
  if s.rcon.ipen then s.gieh && (decide (src.priority = .high) || s.giel)
  else s.gieh && (!src.peripheral || s.giel)

/-- The entry a source's request leads to: with IPEN = 0 there is one vector for all (R283). -/
def entryPriority (s : State) (src : Source) : Priority := if s.rcon.ipen then src.priority else .high

/-- Whether a request that passes its gates leads to this entry. -/
def requestPasses (s : State) (p : Priority) : Bool :=
  Source.all.any fun src => s.requests.has src && gateOpen s src && decide (entryPriority s src = p)

/-- The interrupt that the standing requests cause: the high priority before the low (R289(b)). -/
def interruptDue (s : State) : Option Priority :=
  if requestPasses s .high then some .high else if requestPasses s .low then some .low else none

/-- TAKING AN INTERRUPT, the machine's one kind of exception entry (60_exceptions.md R287): the return address is pushed,
WREG, STATUS and BSR go to the shadows, the priority's enable bit is cleared, and pc goes to its vector. -/
def takeInterrupt (p : Priority) (s : State) : Result :=
  pushThen s s.pc fun t =>
    match p with
    | .high => .next ({ t.saveShadow with gieh := false }.setPc Config.highVector)
    | .low => .next ({ t.saveShadow with giel := false }.setPc Config.lowVector)

/-- The enable bit a return from interrupt sets (42_control.md R210, 60_exceptions.md R290, D18). -/
def State.reenable (s : State) : State :=
  if s.rcon.ipen && s.gieh then { s with giel := true } else { s with gieh := true }

/-- RETURNING FROM AN INTERRUPT (42_control.md R210): pc from the return stack, the shadows restored if `fast`, one enable
bit set. -/
def returnFromInterrupt (fast : Bool) (s : State) : Result :=
  popThen s fun a t => .next ((t.restoreShadowIf fast).reenable.setPc a)

/-! ### The watchdog and sleep, seen from the instructions -/

/-- The watchdog counter and postscaler cleared (10_state.md R48). -/
def State.clearWdt (s : State) : State := { s with wdtCounter := 0, wdtPostscaler := 0 }

/-- RCON.TO and RCON.PD set to these values (R45). -/
def State.setToPd (s : State) (to' pd : Bool) : State :=
  { s with rcon := { s.rcon with timeOut := to', powerDown := pd } }

/-- What an instruction boundary does to the watchdog's counter while it runs: the model counts the instructions since
it was last cleared, which is all R297 says about when a time-out may come (log entry 14). -/
def State.tickWdt (s : State) : State := if s.cfg.wdten then { s with wdtCounter := s.wdtCounter + 1 } else s

end Sys2Proof.Machine
end

