-- ==== Sys2Proof/Machine/Fetch.lean ====
section
/-! DEFINITION. Fetching and decoding the instruction at pc (20_memory.md R73, 30_encoding.md R120), and placing one there
from outside the machine (70_reset_and_hazards.md R318). -/

namespace Sys2Proof.Machine

/-- The model fault a decoding error is (60_exceptions.md R281). -/
def faultOfDecode : DecodeError → Fault
  | .reserved w => .reservedEncoding w
  | .extendedDisabled w => .extendedDisabled w
  | .badSecondWord => .badSecondWord
  | .truncated => .badSecondWord

/-- `ProgRead(pc0, 2)`, its row, the second word if the row has one, and the instruction (R73, R120). -/
def fetch (s : State) : Except Fault Instr :=
  match progWord s s.pc with
  | .error e => .error e
  | .ok w0 =>
    match decodeFirst s.cfg.xinst w0 with
    | .error e => .error (faultOfDecode e)
    | .ok r =>
      if r.two then
        match progWord s (s.pc + 2) with
        | .error e => .error e
        | .ok w1 =>
          match decodeSecond r w0 w1 with
          | .error e => .error (faultOfDecode e)
          | .ok i => .ok i
      else
        match decodeSecond r w0 0 with
        | .error e => .error (faultOfDecode e)
        | .ok i => .ok i

/-- The first words of the extended rows (R124): what a load with `XINST = 1` is needed for. -/
def isExtendedWord (w0 : Word) : Bool :=
  match lookupRow w0 with
  | some r => r.extended
  | none => false

/-- The four bytes of a table word loaded where the next fetch reads, the core running with no interrupt requested and no
environment move to come, and `XINST` set if the word is an extended instruction's (log entry 15). -/
def placeWord (s : State) (nbits w : Nat) : State :=
  { s with
    prog := s.prog.writeProg s.pc (tableWordBytes nbits w)
    runState := .running
    requests := {}
    env := []
    cfg := { s.cfg with xinst := s.cfg.xinst || isExtendedWord (BitVec.ofNat 16 (w % 2 ^ nbits)) } }

end Sys2Proof.Machine
end

