-- ==== Sys2Proof/Machine/Boundary.lean ====
section
/-! DEFINITION. An instruction boundary: the environment's moves there, and what is done next: a reset, an interrupt entry or an
instruction (60_exceptions.md R285, R286, R289, R296, R297, R303). -/

namespace Sys2Proof.Machine

/-- The moves of the environment at this boundary (log entry 11). -/
def State.movesNow (s : State) : List EnvMove := s.env.headD []

/-- The state once they are made: the requests that stand, and the moves of later boundaries. -/
def State.arrive (s : State) : State := { s with requests := s.requests.after s.movesNow, env := s.env.tail }

/-- Whether the watchdog, switched on, times out at this boundary (R297). -/
def wdtExpires (s : State) : Bool := s.cfg.wdten && decide (.wdtTimeout ∈ s.movesNow)

/-- The reset of this boundary, which wins over everything else and is not deferred (R289(a)); of several, the first of
power-on, master-clear and watchdog (log entry 11). A time-out resets a running core that has executed an instruction
since the watchdog was cleared (R297). -/
def resetDue (s : State) : Option ResetKind :=
  if .powerOn ∈ s.movesNow then some .powerOn
  else if .masterClear ∈ s.movesNow then some .masterClear
  else if wdtExpires s && decide (s.runState = .running) && decide (s.wdtCounter ≠ 0) then some .watchdog
  else none

/-- Whether pc is between the two words of an instruction that is being passed over (R286, 40_byte_oriented.md R141; log
entry 35). DESIGN CHOICE, log entry 35: a reserved word 0xEE30 to 0xEE3F that is passed over counts as one word (30_encoding.md
R122), although R112's test of `w0[15:6]` would give it two. DESIGN CHOICE, log entry 36: the first word alone decides, so a next
word without 1111 on top is executed as an instruction of its own before the interrupt. -/
def insideSkip (s : State) : Bool :=
  s.skipped &&
    match progWord s (s.pc - 2) with
    | .error _ => false
    | .ok w0 =>
      match decodeFirst s.cfg.xinst w0 with
      | .error _ => false
      | .ok r => r.two

/-- What is done at a boundary, and the state in which it is done. -/
inductive Turn where
  /-- A device reset. -/
  | reset (k : ResetKind) (s : State)
  /-- An interrupt is entered. -/
  | interrupt (p : Priority) (s : State)
  /-- The core executes the instruction at pc. -/
  | instruction (s : State)
  /-- The core sleeps on. -/
  | asleep (s : State)
deriving DecidableEq, Repr

/-- A sleeping core's turn (R296): it wakes by a time-out of the watchdog, with TO = 0, or by a request, whatever the gates
are, and executes the instruction at pc; only at the boundary after that one can the interrupt be entered (log entry 12).
DESIGN CHOICE, log entry 37: where that instruction is itself `SLEEP` the core sleeps again, and the request that stands
wakes it at the next boundary for one more instruction. DEDUCED, log entry 38: the time-out is a wake-up, as R296(b) and R297
say, although 42_control.md R213 says that the sleeping core is reset by it. With neither it stays as it is (log entry 13). -/
def sleepingTurn (expired : Bool) (t : State) : Turn :=
  if expired then .instruction { t with runState := .running, skipped := false, rcon := { t.rcon with timeOut := false } }
  else if t.requests = {} then .asleep t
  else .instruction { t with runState := .running, skipped := false }

/-- A running core's turn (R285, R286): the interrupt that is due, but not inside a skip; else the instruction at pc. -/
def runningTurn (t : State) : Turn :=
  match interruptDue t with
  | none => .instruction { t with skipped := false }
  | some p => if insideSkip t then .instruction { t with skipped := false } else .interrupt p { t with skipped := false }

/-- What is done at this boundary. -/
def turn (s : State) : Turn :=
  match resetDue s with
  | some k => .reset k s.arrive
  | none =>
    match s.runState with
    | .sleeping => sleepingTurn (wdtExpires s) s.arrive
    | .running => runningTurn s.arrive

end Sys2Proof.Machine
end

