-- ==== Sys2Proof/Machine/Flags.lean ====
section
/-! DEFINITION. The arithmetic flags: STATUS as a byte, and every flag computation of the spec (10_state.md R22 to R30,
42_control.md R202). Results are computed as exact naturals and narrowed at the end, as the rules write them. -/

namespace Sys2Proof.Machine

/-- STATUS as its byte: bits 4..0 are N OV Z DC C, bits 7:5 read 0 (R22). -/
def Flags.toByte (f : Flags) : Byte :=
  0b000#3 ++ BitVec.ofBool f.n ++ BitVec.ofBool f.ov ++ BitVec.ofBool f.z ++ BitVec.ofBool f.dc ++ BitVec.ofBool f.c

/-- The flags a byte written to STATUS gives; bits 7:5 are ignored (R22, 20_memory.md R85). -/
def Flags.ofByte (v : Byte) : Flags :=
  ⟨v.getLsbD 4, v.getLsbD 3, v.getLsbD 2, v.getLsbD 1, v.getLsbD 0⟩

/-- An 8-bit result and the flags that go with it. -/
structure AluResult where
  value : Byte
  flags : Flags
deriving DecidableEq, Repr

/-- Bit 7 of a byte. -/
def signBit (v : Byte) : Bool := v.getLsbD 7

/-- `AddFlags(a, b, cin)` (R28). -/
def addFlags (a b : Byte) (cin : Bool) : AluResult :=
  let s := a.toNat + b.toNat + cin.toNat
  let r : Byte := BitVec.ofNat 8 s
  { value := r
    flags :=
      { c := decide (255 < s)
        dc := decide (15 < a.toNat % 16 + b.toNat % 16 + cin.toNat)
        z := decide (r = 0)
        n := signBit r
        ov := signBit a == signBit b && signBit r != signBit a } }

/-- `SubFlags(a, b, cin)`: `a - b - (1 - cin)` as the addition of the complement; C = 1 and DC = 1 mean no borrow
(R29). -/
def subFlags (a b : Byte) (cin : Bool) : AluResult :=
  let nb := ~~~b
  let s := a.toNat + nb.toNat + cin.toNat
  let r : Byte := BitVec.ofNat 8 s
  { value := r
    flags :=
      { c := decide (255 < s)
        dc := decide (15 < a.toNat % 16 + nb.toNat % 16 + cin.toNat)
        z := decide (r = 0)
        n := signBit r
        ov := signBit a != signBit b && signBit r != signBit a } }

/-- `ZN(r)`: Z and N from the result, C, DC and OV kept (R30). -/
def znFlags (r : Byte) (f : Flags) : AluResult := ⟨r, { f with z := decide (r = 0), n := signBit r }⟩

/-- A rotate through carry: Z and N from the result, C the bit rotated out (R162, R164). -/
def rotateFlags (r : Byte) (out : Bool) (f : Flags) : AluResult :=
  ⟨r, { f with c := out, z := decide (r = 0), n := signBit r }⟩

/-- `DAW` (R202): the adjusted WREG as an unbounded natural. -/
def decimalAdjust (w : Byte) (dc c : Bool) : Nat :=
  let t := if 9 < w.toNat % 16 || dc then w.toNat + 0x06 else w.toNat
  if 9 < t / 16 || c then t + 0x60 else t

end Sys2Proof.Machine
end

