-- ==== Sys2Proof/Machine/Operands.lean ====
section
/-! DEFINITION. Operands: the core registers' addresses (10_state.md R50), effective addresses (20_memory.md R76 to R80),
resolution of an address to a location (R81 to R83), and reading and writing a location (R84 to R87). -/

namespace Sys2Proof.Machine

/-! ### Locations -/

/-- A core register that has a data address and stores something (10_state.md R50). -/
inductive Sfr where
  | tosu | tosh | tosl | stkptr | pclatu | pclath | pcl | tblptru | tblptrh | tblptrl | tablat | prodh | prodl | intcon
  | fsrh (n : FsrNum) | fsrl (n : FsrNum) | wreg | bsr | status | rcon
deriving DecidableEq, Repr

/-- The five ways of an indirect access (20_memory.md R82). -/
inductive IndirectKind where
  | indf
  | postinc
  | postdec
  | preinc
  | plusw
deriving DecidableEq, Repr

/-- What stands at a core address: a register, or a virtual register for indirect access. -/
inductive CoreEntry where
  | core (r : Sfr)
  | virtual (k : IndirectKind) (n : FsrNum)
deriving DecidableEq, Repr

/-- The core registers from 0xFF2 to 0xFFF (10_state.md R50). -/
def stackTableCore : List (DataAddr × CoreEntry) :=
  [ (0xFFF, .core .tosu), (0xFFE, .core .tosh), (0xFFD, .core .tosl), (0xFFC, .core .stkptr), (0xFFB, .core .pclatu),
    (0xFFA, .core .pclath), (0xFF9, .core .pcl), (0xFF8, .core .tblptru), (0xFF7, .core .tblptrh), (0xFF6, .core .tblptrl),
    (0xFF5, .core .tablat), (0xFF4, .core .prodh), (0xFF3, .core .prodl), (0xFF2, .core .intcon) ]

/-- The core registers from 0xFE8 to 0xFEF (10_state.md R50). -/
def fsr0Core : List (DataAddr × CoreEntry) :=
  [ (0xFEF, .virtual .indf .f0), (0xFEE, .virtual .postinc .f0), (0xFED, .virtual .postdec .f0),
    (0xFEC, .virtual .preinc .f0), (0xFEB, .virtual .plusw .f0), (0xFEA, .core (.fsrh .f0)), (0xFE9, .core (.fsrl .f0)),
    (0xFE8, .core .wreg) ]

/-- The core registers from 0xFE0 to 0xFE7 (10_state.md R50). -/
def fsr1Core : List (DataAddr × CoreEntry) :=
  [ (0xFE7, .virtual .indf .f1), (0xFE6, .virtual .postinc .f1), (0xFE5, .virtual .postdec .f1),
    (0xFE4, .virtual .preinc .f1), (0xFE3, .virtual .plusw .f1), (0xFE2, .core (.fsrh .f1)), (0xFE1, .core (.fsrl .f1)),
    (0xFE0, .core .bsr) ]

/-- The core registers from 0xFD0 to 0xFDF (10_state.md R50). -/
def fsr2Core : List (DataAddr × CoreEntry) :=
  [ (0xFDF, .virtual .indf .f2), (0xFDE, .virtual .postinc .f2), (0xFDD, .virtual .postdec .f2),
    (0xFDC, .virtual .preinc .f2), (0xFDB, .virtual .plusw .f2), (0xFDA, .core (.fsrh .f2)), (0xFD9, .core (.fsrl .f2)),
    (0xFD8, .core .status), (0xFD0, .core .rcon) ]

/-- The core registers' addresses (10_state.md R50). -/
def coreTable : List (DataAddr × CoreEntry) := stackTableCore ++ fsr0Core ++ fsr1Core ++ fsr2Core

/-- What stands at a data address, if it is a core register's. -/
def coreEntry (a : DataAddr) : Option CoreEntry := coreTable.lookup a

/-- Whether an address is one of the fifteen virtual registers (R82). -/
def isVirtual (a : DataAddr) : Bool :=
  match coreEntry a with
  | some (.virtual _ _) => true
  | _ => false

/-- A location (20_memory.md R81): a byte of RAM, a core register, or one that reads 0 and ignores writes. -/
inductive Loc where
  | ram (a : DataAddr)
  | reg (r : Sfr)
  | null
deriving DecidableEq, Repr

/-- A location, and the state with the pointer side effect of reaching it done (R81). -/
structure Resolved where
  loc : Loc
  st : State

/-- A location, the byte read from it, and the state after the read. -/
structure Loaded where
  loc : Loc
  val : Byte
  st : State

/-! ### Resolution -/

/-- `Resolve(a)` for an address that is no virtual register (R81, R87). Unimplemented memory reads 0 and ignores writes
(R75, R87) but for the admitted model, where it is `OutOfScopeData` like a peripheral register. -/
def resolveDirect (s : State) (a : DataAddr) : Except Fault Loc :=
  match coreEntry a with
  | some (.core r) => .ok (.reg r)
  | _ =>
    if a.toNat < s.cfg.ramBytes then .ok (.ram a)
    else if s.cfg.admitted || decide (s.cfg.sfrBase ≤ a) then .error (.outOfScopeData a)
    else .ok .null

/-- The target of an indirect access and the FSR afterwards (R82). PLUSW takes WREG as a signed offset. -/
def indirectTarget (s : State) (k : IndirectKind) (n : FsrNum) : DataAddr × DataAddr :=
  let p := s.fsr n
  match k with
  | .indf => (p, p)
  | .postinc => (p, p + 1)
  | .postdec => (p, p - 1)
  | .preinc => (p + 1, p + 1)
  | .plusw => (p + s.wreg.signExtend 12, p)

/-- `Resolve(a)` (R81 to R83): a virtual register moves its FSR once and reaches where it points; a pointer at a virtual
register reaches `Null`. -/
def resolve (s : State) (a : DataAddr) : Except Fault Resolved :=
  match coreEntry a with
  | some (.virtual k n) =>
    let (t, p) := indirectTarget s k n
    let s' := s.setFsr n p
    if isVirtual t then .ok ⟨.null, s'⟩
    else
      match resolveDirect s' t with
      | .error e => .error e
      | .ok l => .ok ⟨l, s'⟩
  | _ =>
    match resolveDirect s a with
    | .error e => .error e
    | .ok l => .ok ⟨l, s⟩

/-- An FSR2-plus-offset address of `MOVSF` or `MOVSS`: a virtual register is `Null` and moves no pointer (R81, R83). -/
def resolveIndexed (s : State) (z : BitVec 7) : Except Fault Loc :=
  let a := s.fsr2 + z.setWidth 12
  if isVirtual a then .ok .null else resolveDirect s a

/-! ### Effective addresses -/

/-- Whether an operand is in indexed literal offset mode (R79). -/
def indexedMode (s : State) (f : Byte) (a : Access) : Bool :=
  s.cfg.xinst && decide (a = .access) && decide (f ≤ 0x5F)

/-- `DataAddr(f, a)` (R76 to R79). -/
def dataAddr (s : State) (f : Byte) : Access → DataAddr
  | .banked => s.bsr ++ f
  | .access =>
    if indexedMode s f .access then s.fsr2 + f.setWidth 12
    else if f < s.cfg.accessSplit then 0x0#4 ++ f
    else 0xF#4 ++ f

/-- The operand of a byte- or bit-oriented instruction, resolved once (R76, R79, R86). -/
def resolveOperand (s : State) (f : Byte) (a : Access) : Except Fault Resolved :=
  if indexedMode s f a && isVirtual (dataAddr s f a) then .error .virtualViaFsr2
  else resolve s (dataAddr s f a)

/-! ### Reading -/

/-- The length of the instruction that reads: it matters to PCL only (R84). -/
inductive Words where
  | one
  | two
deriving DecidableEq, Repr

/-- Reading PCL, pc already past the instruction (R84): the low byte of `pc0 + 2`, the upper bytes going to the latches.
Inside a two-word instruction: `PclInTwoWord` in the admitted model, else the free choice of `pc0 + 2` or `pc0 + 4`
(log entry 10). -/
def pclRead (ws : Words) (s : State) : Except Fault (Byte × State) :=
  let seen (p : ProgAddr) : Byte × State :=
    (p.extractLsb' 0 8, { s with pclath := p.extractLsb' 8 8, pclatu := p.extractLsb' 16 5 })
  match ws with
  | .one => .ok (seen s.pc)
  | .two =>
    if s.cfg.admitted then .error .pclInTwoWord
    else .ok (seen (if Config.pclReadsFourAhead s.pc.toNat then s.pc else s.pc - 2))

/-- The byte a core register other than PCL reads as (R85; 10_state.md R22, R31, R38, R45, R46, R50). -/
def sfrByte (s : State) : Sfr → Byte
  | .tosu => 0b000#3 ++ s.tos.extractLsb' 16 5
  | .tosh => s.tos.extractLsb' 8 8
  | .tosl => s.tos.extractLsb' 0 8
  | .stkptr => BitVec.ofBool s.stkful ++ BitVec.ofBool s.stkunf ++ 0#1 ++ s.sp
  | .pclatu => 0b000#3 ++ s.pclatu
  | .pclath => s.pclath
  | .pcl => s.pc.extractLsb' 0 8
  | .tblptru => 0b00#2 ++ s.tblptr.extractLsb' 16 6
  | .tblptrh => s.tblptr.extractLsb' 8 8
  | .tblptrl => s.tblptr.extractLsb' 0 8
  | .tablat => s.tablat
  | .prodh => s.prodh
  | .prodl => s.prodl
  | .intcon => BitVec.ofBool s.gieh ++ BitVec.ofBool s.giel ++ 0#6
  | .fsrh n => 0x0#4 ++ (s.fsr n).extractLsb' 8 4
  | .fsrl n => (s.fsr n).extractLsb' 0 8
  | .wreg => s.wreg
  | .bsr => 0x0#4 ++ s.bsr
  | .status => s.flags.toByte
  | .rcon =>
    BitVec.ofBool s.rcon.ipen ++ BitVec.ofBool s.rcon.sboren ++ 0#1 ++ BitVec.ofBool s.rcon.ri ++
      BitVec.ofBool s.rcon.timeOut ++ BitVec.ofBool s.rcon.powerDown ++ BitVec.ofBool s.rcon.por ++
      BitVec.ofBool s.rcon.bor

/-- `LocRead(loc)` (R83 to R85). -/
def locRead (ws : Words) (s : State) : Loc → Except Fault (Byte × State)
  | .ram a =>
    match ramByte s a with
    | .error e => .error e
    | .ok v => .ok (v, s)
  | .reg .pcl => pclRead ws s
  | .reg r => .ok (sfrByte s r, s)
  | .null => .ok (0x00, s)

/-- Resolve an operand and read it. -/
def readOperand (s : State) (f : Byte) (a : Access) : Except Fault Loaded :=
  match resolveOperand s f a with
  | .error e => .error e
  | .ok r =>
    match locRead .one r.st r.loc with
    | .error e => .error e
    | .ok (v, t) => .ok ⟨r.loc, v, t⟩

/-! ### Writing -/

/-- A byte put in place of bits `8k+7:8k` of a program address. -/
def replaceByte (p : ProgAddr) (k : Nat) (v : Byte) : ProgAddr :=
  (p &&& ~~~((0xFF : ProgAddr) <<< (8 * k))) ||| (v.setWidth 21 <<< (8 * k))

/-- A write of one byte of the top of the stack: entry SP's byte is replaced; with SP = 0 it is `StackRegisterWrite` in
the admitted model and reaches a dead entry otherwise (R38, U7, log entry 7). -/
def tosWrite (s : State) (k : Nat) (v : Byte) : Except Fault State :=
  if s.sp = 0 then
    if s.cfg.admitted then .error .stackRegisterWrite else .ok s
  else .ok (s.setTos (replaceByte s.tos k v))

/-- Writing a core register (R84, R85; 10_state.md R22, R31, R35, R38, R45, R46). STKPTR: `StackRegisterWrite` in the
admitted model; otherwise SP is written and STKFUL, STKUNF can only be cleared (R38, log entry 7). -/
def sfrWrite (s : State) (r : Sfr) (v : Byte) : Except Fault State :=
  match r with
  | .tosu => tosWrite s 2 v
  | .tosh => tosWrite s 1 v
  | .tosl => tosWrite s 0 v
  | .stkptr =>
    if s.cfg.admitted then .error .stackRegisterWrite
    else .ok { s with
      sp := v.extractLsb' 0 5
      stkful := s.stkful && v.getLsbD 7
      stkunf := s.stkunf && v.getLsbD 6 }
  | .pclatu => .ok { s with pclatu := v.extractLsb' 0 5 }
  | .pclath => .ok { s with pclath := v }
  | .pcl => .ok (s.setPc (s.latchedTarget v))
  | .tblptru => .ok { s with tblptr := v.extractLsb' 0 6 ++ s.tblptr.extractLsb' 0 16 }
  | .tblptrh => .ok { s with tblptr := s.tblptr.extractLsb' 16 6 ++ v ++ s.tblptr.extractLsb' 0 8 }
  | .tblptrl => .ok { s with tblptr := s.tblptr.extractLsb' 8 14 ++ v }
  | .tablat => .ok { s with tablat := v }
  | .prodh => .ok { s with prodh := v }
  | .prodl => .ok { s with prodl := v }
  | .intcon =>
    if v.extractLsb' 3 3 = 0 then .ok { s with gieh := v.getLsbD 7, giel := v.getLsbD 6 }
    else .error .outOfScopeSfr
  | .fsrh n => .ok (s.setFsr n (v.extractLsb' 0 4 ++ (s.fsr n).extractLsb' 0 8))
  | .fsrl n => .ok (s.setFsr n ((s.fsr n).extractLsb' 8 4 ++ v))
  | .wreg => .ok { s with wreg := v }
  | .bsr => .ok { s with bsr := v.extractLsb' 0 4 }
  | .status => .ok { s with flags := Flags.ofByte v }
  | .rcon =>
    .ok { s with
      rcon := { s.rcon with
        ipen := v.getLsbD 7
        sboren := v.getLsbD 6
        ri := v.getLsbD 4
        por := v.getLsbD 1
        bor := v.getLsbD 0 } }

/-- `LocWrite(loc, v)` (R83 to R85). -/
def locWrite (s : State) (l : Loc) (v : Byte) : Except Fault State :=
  match l with
  | .ram a => .ok { s with ram := s.ram.write a.toNat v }
  | .reg r => sfrWrite s r v
  | .null => .ok s

/-- The write of an instruction that also writes flags by its own rule. With STATUS as the destination the computed
flags stand and the result byte is not written; the admitted model raises `StatusDestination` (10_state.md R51, log entry 6). -/
def storeWithFlags (s : State) (l : Loc) (r : AluResult) : Except Fault State :=
  if l = .reg .status then
    if s.cfg.admitted then .error .statusDestination else .ok { s with flags := r.flags }
  else locWrite { s with flags := r.flags } l r.value

/-- `Dest(d, ea, r)` with flags (40_byte_oriented.md R140). -/
def destWithFlags (s : State) (d : Dest) (l : Loc) (r : AluResult) : Except Fault State :=
  match d with
  | .w => .ok { s with wreg := r.value, flags := r.flags }
  | .f => storeWithFlags s l r

/-- `Dest(d, ea, r)` without flags (R140). -/
def destPlain (s : State) (d : Dest) (l : Loc) (r : Byte) : Except Fault State :=
  match d with
  | .w => .ok { s with wreg := r }
  | .f => locWrite s l r

/-- The locations `MOVFF`, `MOVSF` and `MOVSS` may not write (R84, R85, D35). -/
def moveForbidden (l : Loc) : Bool :=
  decide (l = .reg .pcl ∨ l = .reg .tosu ∨ l = .reg .tosh ∨ l = .reg .tosl)

/-- The write of `MOVFF`, `MOVSF` and `MOVSS`. -/
def moveWrite (s : State) (l : Loc) (v : Byte) : Except Fault State :=
  if moveForbidden l then .error .pclOrTosDestination else locWrite s l v

/-! ### Instruction shapes over an operand (R140, R180)

Each is the skeleton of several instructions: pc moves past the word, the operand is resolved once, and the location is
used for the read and the write. -/

/-- Read, compute a result and flags from the byte, WREG and the old flags, and put the result where `d` says. -/
def flagOp (s : State) (f : Byte) (d : Dest) (a : Access) (op : Byte → Byte → Flags → AluResult) : Result :=
  andThen (readOperand (s.advance 2) f a) fun x =>
    finish (destWithFlags x.st d x.loc (op x.val x.st.wreg x.st.flags))

/-- Read, compute a result from the byte, and put it where `d` says; no flag is written. -/
def plainOp (s : State) (f : Byte) (d : Dest) (a : Access) (op : Byte → Byte) : Result :=
  andThen (readOperand (s.advance 2) f a) fun x => finish (destPlain x.st d x.loc (op x.val))

/-- Write without reading (R86). -/
def writeOnly (s : State) (f : Byte) (a : Access) (w : State → Loc → Except Fault State) : Result :=
  andThen (resolveOperand (s.advance 2) f a) fun x => finish (w x.st x.loc)

/-- Read, compute, put the result where `d` says, and skip on the result; no flag is written. PCL as the destination
is `PclSkipDestination` (R84, D23). -/
def countSkip (s : State) (f : Byte) (d : Dest) (a : Access) (op : Byte → Byte) (skips : Byte → Bool) : Result :=
  andThen (readOperand (s.advance 2) f a) fun x =>
    if d = .f ∧ x.loc = .reg .pcl then .fault .pclSkipDestination
    else andThen (destPlain x.st d x.loc (op x.val)) fun t => .next (t.skipIf (skips (op x.val)))

/-- Read, and skip on the byte and WREG; nothing is written (R141). -/
def testSkip (s : State) (f : Byte) (a : Access) (skips : Byte → Byte → Bool) : Result :=
  andThen (readOperand (s.advance 2) f a) fun x => .next (x.st.skipIf (skips x.val x.st.wreg))

end Sys2Proof.Machine
end

