-- ==== Sys2Proof/Machine/BitOriented.lean ====
section
/-! DEFINITION. The bit-oriented instructions (41_bit_oriented.md). -/

namespace Sys2Proof.Machine

/-- `1 << b`, 8 bits. -/
def bitMask (b : BitVec 3) : Byte := 1#8 <<< b.toNat

/-- BCF (R181). -/
def execBcf (f : Byte) (b : BitVec 3) (a : Access) (s : State) : Result :=
  plainOp s f .f a fun v => v &&& ~~~bitMask b

/-- BSF (R182). -/
def execBsf (f : Byte) (b : BitVec 3) (a : Access) (s : State) : Result :=
  plainOp s f .f a fun v => v ||| bitMask b

/-- BTFSC (R183). -/
def execBtfsc (f : Byte) (b : BitVec 3) (a : Access) (s : State) : Result :=
  testSkip s f a fun v _ => !v.getLsbD b.toNat

/-- BTFSS (R184). -/
def execBtfss (f : Byte) (b : BitVec 3) (a : Access) (s : State) : Result :=
  testSkip s f a fun v _ => v.getLsbD b.toNat

/-- BTG (R185). -/
def execBtg (f : Byte) (b : BitVec 3) (a : Access) (s : State) : Result :=
  plainOp s f .f a fun v => v ^^^ bitMask b

end Sys2Proof.Machine
end

