-- ==== Sys2Proof/Machine/ByteOriented.lean ====
section
/-! DEFINITION. The byte-oriented instructions (40_byte_oriented.md). -/

namespace Sys2Proof.Machine

/-- ADDWF (R142). -/
def execAddwf (f : Byte) (d : Dest) (a : Access) (s : State) : Result :=
  flagOp s f d a fun v w _ => addFlags v w false

/-- ADDWFC (R143): the old C is the carry in. -/
def execAddwfc (f : Byte) (d : Dest) (a : Access) (s : State) : Result :=
  flagOp s f d a fun v w fl => addFlags v w fl.c

/-- ANDWF (R144). -/
def execAndwf (f : Byte) (d : Dest) (a : Access) (s : State) : Result :=
  flagOp s f d a fun v w fl => znFlags (v &&& w) fl

/-- CLRF (R145): the operand is not read; Z is set. -/
def execClrf (f : Byte) (a : Access) (s : State) : Result :=
  writeOnly s f a fun t l => storeWithFlags t l ⟨0x00, { t.flags with z := true }⟩

/-- COMF (R146). -/
def execComf (f : Byte) (d : Dest) (a : Access) (s : State) : Result :=
  flagOp s f d a fun v _ fl => znFlags (~~~v) fl

/-- CPFSEQ (R147). -/
def execCpfseq (f : Byte) (a : Access) (s : State) : Result :=
  testSkip s f a fun v w => decide (v = w)

/-- CPFSGT (R148): unsigned. -/
def execCpfsgt (f : Byte) (a : Access) (s : State) : Result :=
  testSkip s f a fun v w => decide (w.toNat < v.toNat)

/-- CPFSLT (R149): unsigned. -/
def execCpfslt (f : Byte) (a : Access) (s : State) : Result :=
  testSkip s f a fun v w => decide (v.toNat < w.toNat)

/-- DECF (R150). -/
def execDecf (f : Byte) (d : Dest) (a : Access) (s : State) : Result :=
  flagOp s f d a fun v _ _ => subFlags v 0x01 true

/-- DECFSZ (R151). -/
def execDecfsz (f : Byte) (d : Dest) (a : Access) (s : State) : Result :=
  countSkip s f d a (fun v => v - 1) fun r => decide (r = 0)

/-- DCFSNZ (R152). -/
def execDcfsnz (f : Byte) (d : Dest) (a : Access) (s : State) : Result :=
  countSkip s f d a (fun v => v - 1) fun r => decide (r ≠ 0)

/-- INCF (R153). -/
def execIncf (f : Byte) (d : Dest) (a : Access) (s : State) : Result :=
  flagOp s f d a fun v _ _ => addFlags v 0x01 false

/-- INCFSZ (R154). -/
def execIncfsz (f : Byte) (d : Dest) (a : Access) (s : State) : Result :=
  countSkip s f d a (fun v => v + 1) fun r => decide (r = 0)

/-- INFSNZ (R155). -/
def execInfsnz (f : Byte) (d : Dest) (a : Access) (s : State) : Result :=
  countSkip s f d a (fun v => v + 1) fun r => decide (r ≠ 0)

/-- IORWF (R156). -/
def execIorwf (f : Byte) (d : Dest) (a : Access) (s : State) : Result :=
  flagOp s f d a fun v w fl => znFlags (v ||| w) fl

/-- MOVF (R157). -/
def execMovf (f : Byte) (d : Dest) (a : Access) (s : State) : Result :=
  flagOp s f d a fun v _ fl => znFlags v fl

/-- MOVFF (R158): two words; the source is resolved and read before the destination is resolved (R86). -/
def execMovff (fs fd : DataAddr) (s : State) : Result :=
  andThen (resolve (s.advance 4) fs) fun x =>
    andThen (locRead .two x.st x.loc) fun y =>
      andThen (resolve y.2 fd) fun z => finish (moveWrite z.st z.loc y.1)

/-- MOVWF (R159): the operand is not read. -/
def execMovwf (f : Byte) (a : Access) (s : State) : Result :=
  writeOnly s f a fun t l => locWrite t l t.wreg

/-- MULWF (R160): the unsigned 16-bit product to PRODH:PRODL; no flag. -/
def execMulwf (f : Byte) (a : Access) (s : State) : Result :=
  andThen (readOperand (s.advance 2) f a) fun x =>
    let p : BitVec 16 := BitVec.ofNat 16 (x.st.wreg.toNat * x.val.toNat)
    .next { x.st with prodh := p.extractLsb' 8 8, prodl := p.extractLsb' 0 8 }

/-- NEGF (R161): the result always goes to f. -/
def execNegf (f : Byte) (a : Access) (s : State) : Result :=
  flagOp s f .f a fun v _ _ => subFlags 0x00 v true

/-- RLCF (R162): `r <- v[6:0] : C`, C the old bit 7. -/
def execRlcf (f : Byte) (d : Dest) (a : Access) (s : State) : Result :=
  flagOp s f d a fun v _ fl => rotateFlags (v.extractLsb' 0 7 ++ BitVec.ofBool fl.c) (v.getLsbD 7) fl

/-- RLNCF (R163): `r <- v[6:0] : v[7]`. -/
def execRlncf (f : Byte) (d : Dest) (a : Access) (s : State) : Result :=
  flagOp s f d a fun v _ fl => znFlags (v.extractLsb' 0 7 ++ v.extractLsb' 7 1) fl

/-- RRCF (R164): `r <- C : v[7:1]`, C the old bit 0. -/
def execRrcf (f : Byte) (d : Dest) (a : Access) (s : State) : Result :=
  flagOp s f d a fun v _ fl => rotateFlags (BitVec.ofBool fl.c ++ v.extractLsb' 1 7) (v.getLsbD 0) fl

/-- RRNCF (R165): `r <- v[0] : v[7:1]`. -/
def execRrncf (f : Byte) (d : Dest) (a : Access) (s : State) : Result :=
  flagOp s f d a fun v _ fl => znFlags (v.extractLsb' 0 1 ++ v.extractLsb' 1 7) fl

/-- SETF (R166): the operand is not read. -/
def execSetf (f : Byte) (a : Access) (s : State) : Result :=
  writeOnly s f a fun t l => locWrite t l 0xFF

/-- SUBFWB (R167): WREG - f - borrow. -/
def execSubfwb (f : Byte) (d : Dest) (a : Access) (s : State) : Result :=
  flagOp s f d a fun v w fl => subFlags w v fl.c

/-- SUBWF (R168): f - WREG. -/
def execSubwf (f : Byte) (d : Dest) (a : Access) (s : State) : Result :=
  flagOp s f d a fun v w _ => subFlags v w true

/-- SUBWFB (R169): f - WREG - borrow. -/
def execSubwfb (f : Byte) (d : Dest) (a : Access) (s : State) : Result :=
  flagOp s f d a fun v w fl => subFlags v w fl.c

/-- SWAPF (R170). -/
def execSwapf (f : Byte) (d : Dest) (a : Access) (s : State) : Result :=
  plainOp s f d a fun v => v.extractLsb' 0 4 ++ v.extractLsb' 4 4

/-- TSTFSZ (R171). -/
def execTstfsz (f : Byte) (a : Access) (s : State) : Result :=
  testSkip s f a fun v _ => decide (v = 0x00)

/-- XORWF (R172). -/
def execXorwf (f : Byte) (d : Dest) (a : Access) (s : State) : Result :=
  flagOp s f d a fun v w fl => znFlags (v ^^^ w) fl

end Sys2Proof.Machine
end

