-- ==== Sys2Proof/Machine/Control.lean ====
section
/-! DEFINITION. The control instructions (42_control.md). -/

namespace Sys2Proof.Machine

/-- A conditional branch: to `RelTarget(n)` when the condition holds, else to the next instruction (R190, R191). -/
def branchIf (s : State) (taken : Bool) (n : BitVec 8) : Result :=
  .next (s.setPc (if taken then relTarget s.pc n else s.pc + 2))

/-- BC (R191). -/
def execBc (n : BitVec 8) (s : State) : Result := branchIf s s.flags.c n

/-- BN (R192). -/
def execBn (n : BitVec 8) (s : State) : Result := branchIf s s.flags.n n

/-- BNC (R193). -/
def execBnc (n : BitVec 8) (s : State) : Result := branchIf s (!s.flags.c) n

/-- BNN (R194). -/
def execBnn (n : BitVec 8) (s : State) : Result := branchIf s (!s.flags.n) n

/-- BNOV (R195). -/
def execBnov (n : BitVec 8) (s : State) : Result := branchIf s (!s.flags.ov) n

/-- BNZ (R196). -/
def execBnz (n : BitVec 8) (s : State) : Result := branchIf s (!s.flags.z) n

/-- BOV (R197). -/
def execBov (n : BitVec 8) (s : State) : Result := branchIf s s.flags.ov n

/-- BRA (R198). -/
def execBra (n : BitVec 11) (s : State) : Result := .next (s.setPc (relTarget s.pc n))

/-- BZ (R199). -/
def execBz (n : BitVec 8) (s : State) : Result := branchIf s s.flags.z n

/-- CALL (R200): `pc0 + 4` is pushed, the shadows take WREG, STATUS and BSR if `s = 1`, and pc goes to `AbsTarget(k)`. -/
def execCall (k : BitVec 20) (fast : Bool) (s : State) : Result :=
  pushThen (s.advance 4) (s.pc + 4) fun t => .next ((t.saveShadowIf fast).setPc (absTarget k))

/-- CLRWDT (R201). -/
def execClrwdt (s : State) : Result := .next ((s.advance 2).clearWdt.setToPd true true)

/-- DAW (R202): C is set when the adjustment carries out, else kept; the other flags are kept. -/
def execDaw (s : State) : Result :=
  let t := decimalAdjust s.wreg s.flags.dc s.flags.c
  .next { s.advance 2 with
    wreg := BitVec.ofNat 8 t
    flags := { s.flags with c := s.flags.c || decide (255 < t) } }

/-- GOTO (R203). -/
def execGoto (k : BitVec 20) (s : State) : Result := .next (s.setPc (absTarget k))

/-- NOP (R204). -/
def execNop (s : State) : Result := .next (s.advance 2)

/-- NOP, second-word form (R205): the twelve low bits are ignored. -/
def execNopSecond (_x : BitVec 12) (s : State) : Result := .next (s.advance 2)

/-- POP (R206): the value is discarded; an empty stack loads pc with 0, in `popThen` (10_state.md R40). -/
def execPop (s : State) : Result := popThen (s.advance 2) fun _ t => .next t

/-- PUSH (R207): the address of the next instruction. -/
def execPush (s : State) : Result := pushThen (s.advance 2) (s.pc + 2) fun t => .next t

/-- RCALL (R208). -/
def execRcall (n : BitVec 11) (s : State) : Result :=
  pushThen (s.advance 2) (s.pc + 2) fun t => .next (t.setPc (relTarget s.pc n))

/-- RESET (R209; 70_reset_and_hazards.md R311). -/
def execReset (s : State) : Result := .next (deviceReset .software s)

/-- RETFIE (R210). -/
def execRetfie (fast : Bool) (s : State) : Result := returnFromInterrupt fast s

/-- RETLW (R211). -/
def execRetlw (k : Byte) (s : State) : Result := popThen { s with wreg := k } fun a t => .next (t.setPc a)

/-- RETURN (R212). -/
def execReturn (fast : Bool) (s : State) : Result :=
  popThen s fun a t => .next ((t.restoreShadowIf fast).setPc a)

/-- SLEEP (R213). -/
def execSleep (s : State) : Result :=
  .next { (s.advance 2).clearWdt.setToPd true false with runState := .sleeping }

end Sys2Proof.Machine
end

