-- ==== Sys2Proof/Machine/Extended.lean ====
section
/-! DEFINITION. The extended instructions (45_extended.md): each checks `XINST` (R260, 30_encoding.md R124). -/

namespace Sys2Proof.Machine

/-- The gate of the extended set: with `XINST = 0`, `ExtendedDisabled` of the instruction's first word (R260). -/
def requireXinst (s : State) (i : Instr) (k : Result) : Result :=
  if s.cfg.xinst then k else .fault (.extendedDisabled (firstWord i))

/-- ADDFSR (R262). FSR number 3 is no `ADDFSR`. -/
def execAddfsr (f : BitVec 2) (k : BitVec 6) (s : State) : Result :=
  match fsrNum f with
  | some n =>
    requireXinst s (.addfsr f k) (.next ((s.advance 2).setFsr n (s.fsr n + k.setWidth 12)))
  | none => .refused .illFormed

/-- ADDULNK (R263). -/
def execAddulnk (k : BitVec 6) (s : State) : Result :=
  requireXinst s (.addulnk k)
    (popThen { s with fsr2 := s.fsr2 + k.setWidth 12 } fun a t => .next (t.setPc a))

/-- CALLW (R264): `pc0 + 2` is pushed; the target is PCLATU : PCLATH : WREG. -/
def execCallw (s : State) : Result :=
  requireXinst s .callw
    (pushThen (s.advance 2) (s.pc + 2) fun t => .next (t.setPc (t.latchedTarget t.wreg)))

/-- MOVSF (R265): the source address is FSR2 + zs, a virtual register there reads 0x00 and moves no pointer; the
destination is any 12-bit address. -/
def execMovsf (zs : BitVec 7) (fd : DataAddr) (s : State) : Result :=
  requireXinst s (.movsf zs fd)
    (andThen (resolveIndexed (s.advance 4) zs) fun l =>
      andThen (locRead .two (s.advance 4) l) fun y =>
        andThen (resolve y.2 fd) fun z => finish (moveWrite z.st z.loc y.1))

/-- MOVSS (R266): both addresses are FSR2 plus an offset; a virtual register there reads 0x00, or is not written. -/
def execMovss (zs zd : BitVec 7) (s : State) : Result :=
  requireXinst s (.movss zs zd)
    (andThen (resolveIndexed (s.advance 4) zs) fun l =>
      andThen (locRead .two (s.advance 4) l) fun y =>
        andThen (resolveIndexed y.2 zd) fun m => finish (moveWrite y.2 m y.1))

/-- PUSHL (R267): the store, then the decrement of FSR2. A virtual register under FSR2 is `VirtualViaFsr2`. -/
def execPushl (k : Byte) (s : State) : Result :=
  requireXinst s (.pushl k)
    (if isVirtual s.fsr2 then .fault .virtualViaFsr2
    else
      andThen (resolveDirect (s.advance 2) s.fsr2) fun l =>
        andThen (locWrite (s.advance 2) l k) fun t => .next { t with fsr2 := t.fsr2 - 1 })

/-- SUBFSR (R268). FSR number 3 is no `SUBFSR`. -/
def execSubfsr (f : BitVec 2) (k : BitVec 6) (s : State) : Result :=
  match fsrNum f with
  | some n =>
    requireXinst s (.subfsr f k) (.next ((s.advance 2).setFsr n (s.fsr n - k.setWidth 12)))
  | none => .refused .illFormed

/-- SUBULNK (R269). -/
def execSubulnk (k : BitVec 6) (s : State) : Result :=
  requireXinst s (.subulnk k)
    (popThen { s with fsr2 := s.fsr2 - k.setWidth 12 } fun a t => .next (t.setPc a))

end Sys2Proof.Machine
end

