-- ==== Sys2Proof/Machine/Literal.lean ====
section
/-! DEFINITION. The literal instructions (43_literal.md); RETLW stands with the control instructions (R238). -/

namespace Sys2Proof.Machine

/-- pc past the word, WREG and the flags from a result (R230). -/
def literalResult (s : State) (r : AluResult) : Result :=
  .next { s.advance 2 with wreg := r.value, flags := r.flags }

/-- ADDLW (R231). -/
def execAddlw (k : Byte) (s : State) : Result := literalResult s (addFlags s.wreg k false)

/-- ANDLW (R232). -/
def execAndlw (k : Byte) (s : State) : Result := literalResult s (znFlags (s.wreg &&& k) s.flags)

/-- IORLW (R233). -/
def execIorlw (k : Byte) (s : State) : Result := literalResult s (znFlags (s.wreg ||| k) s.flags)

/-- LFSR (R234): two words; ff = 11 is a reserved encoding. -/
def execLfsr (f : BitVec 2) (k : BitVec 12) (s : State) : Result :=
  match fsrNum f with
  | some n => .next ((s.advance 4).setFsr n k)
  | none => .fault (.reservedEncoding (firstWord (.lfsr f k)))

/-- MOVLB (R235). -/
def execMovlb (k : BitVec 4) (s : State) : Result := .next { s.advance 2 with bsr := k }

/-- MOVLW (R236). -/
def execMovlw (k : Byte) (s : State) : Result := .next { s.advance 2 with wreg := k }

/-- MULLW (R237): the unsigned 16-bit product to PRODH:PRODL; no flag. -/
def execMullw (k : Byte) (s : State) : Result :=
  let p : BitVec 16 := BitVec.ofNat 16 (s.wreg.toNat * k.toNat)
  .next { s.advance 2 with prodh := p.extractLsb' 8 8, prodl := p.extractLsb' 0 8 }

/-- SUBLW (R239): k - WREG. -/
def execSublw (k : Byte) (s : State) : Result := literalResult s (subFlags k s.wreg true)

/-- XORLW (R240). -/
def execXorlw (k : Byte) (s : State) : Result := literalResult s (znFlags (s.wreg ^^^ k) s.flags)

end Sys2Proof.Machine
end

