-- ==== Sys2Proof/Machine/Table.lean ====
section
/-! DEFINITION. The program-memory table operations (44_table.md). -/

namespace Sys2Proof.Machine

/-- `TABLAT <- ProgRead(t, 1)` (R246, R247): the configuration and ID space is `TableOutsideProgramSpace`. -/
def tableRead (s : State) (t : TblAddr) : Except Fault State :=
  if t.getLsbD 21 then .error .tableOutsideProgramSpace
  else
    match progByte s (t.setWidth 21) with
    | .error e => .error e
    | .ok v => .ok { s with tablat := v }

/-- `hold[t mod HOLD_BYTES] <- TABLAT` (R246, R251): program memory does not change. -/
def tableWrite (s : State) (t : TblAddr) : Except Fault State :=
  if t.getLsbD 21 then .error .tableOutsideProgramSpace
  else .ok { s with hold := s.hold.write (t.toNat % s.cfg.holdBytes) s.tablat }

/-- An access at TBLPTR, and TBLPTR afterwards, with pc past the word (R245). -/
def tableOp (s : State) (access : State → TblAddr → Except Fault State) (at' after : TblAddr) : Result :=
  andThen (access (s.advance 2) at') fun t => .next { t with tblptr := after }

/-- TBLRD* (R247). -/
def execTblrd (s : State) : Result := tableOp s tableRead s.tblptr s.tblptr

/-- TBLRD*+ (R248). -/
def execTblrdPostInc (s : State) : Result := tableOp s tableRead s.tblptr (s.tblptr + 1)

/-- TBLRD*- (R249). -/
def execTblrdPostDec (s : State) : Result := tableOp s tableRead s.tblptr (s.tblptr - 1)

/-- TBLRD+* (R250). -/
def execTblrdPreInc (s : State) : Result := tableOp s tableRead (s.tblptr + 1) (s.tblptr + 1)

/-- TBLWT* (R251). -/
def execTblwt (s : State) : Result := tableOp s tableWrite s.tblptr s.tblptr

/-- TBLWT*+ (R252): the pointer moves after the write (90_conflicts.md C3). -/
def execTblwtPostInc (s : State) : Result := tableOp s tableWrite s.tblptr (s.tblptr + 1)

/-- TBLWT*- (R253): the pointer moves after the write (90_conflicts.md C3). -/
def execTblwtPostDec (s : State) : Result := tableOp s tableWrite s.tblptr (s.tblptr - 1)

/-- TBLWT+* (R254): the pointer moves before the write (90_conflicts.md C3). -/
def execTblwtPreInc (s : State) : Result := tableOp s tableWrite (s.tblptr + 1) (s.tblptr + 1)

end Sys2Proof.Machine
end

