-- ==== Sys2Proof/Machine/Step.lean ====
section
/-! DEFINITION. One step of the machine, from one instruction boundary to the next. -/

namespace Sys2Proof.Machine

/-- The core executes an instruction: fetch, decode, execute (00_scope.md R15, 20_memory.md R73). -/
def runInstruction (s : State) : Host.Outcome State Fault Refusal := andThen (fetch s) fun i => exec i s.tickWdt

/-- One step: what `turn` says is done at this boundary. A sleeping core that nothing wakes has no instruction step, and its
state stays as it is but for the environment's moves (60_exceptions.md R296; log entry 13). -/
def step (s : State) : Host.Outcome State Fault Refusal :=
  match turn s with
  | .reset k t => .next (deviceReset k t)
  | .interrupt p t => takeInterrupt p t
  | .instruction t => runInstruction t
  | .asleep t => .next t

/-- `s` with an instruction, its bits numbered as spec/opcode_table.json numbers them, stored where `step` fetches next. -/
def State.withFetchWord (s : State) (nbits w : Nat) : State := placeWord s nbits w

end Sys2Proof.Machine
end

