-- ==== Sys2Proof/Laws/Decode.lean ====
section
/-! SUPPORT. The decoder and the encoder: fields of a composed word, the fixed bits of each format, and that at most one
row of the opcode table fits a word. -/

namespace Sys2Proof

/-! ### Fields of an append -/

theorem extract_low {n m : Nat} (x : BitVec n) (y : BitVec m) : (x ++ y).extractLsb' 0 m = y := by
  ext i hi
  simp [BitVec.getLsbD_append, hi]

theorem extract_high {n m : Nat} (x : BitVec n) (y : BitVec m) : (x ++ y).extractLsb' m n = x := by
  ext i hi
  simp [BitVec.getLsbD_append, hi]

/-- A field that lies in the lower part. -/
theorem extract_in_low {n m : Nat} (x : BitVec n) (y : BitVec m) (k w : Nat) (h : k + w ≤ m) :
    (x ++ y).extractLsb' k w = y.extractLsb' k w := by
  ext i hi
  have h' : k + i < m := by omega
  simp [BitVec.getLsbD_append, h']

/-- A field that lies in the upper part. -/
theorem extract_in_high {n m : Nat} (x : BitVec n) (y : BitVec m) (k w : Nat) :
    (x ++ y).extractLsb' (m + k) w = x.extractLsb' k w := by
  ext i hi
  simp [BitVec.getLsbD_append, Nat.add_assoc]

theorem extract_whole {n : Nat} (x : BitVec n) : x.extractLsb' 0 n = x := by
  ext i hi
  simp

theorem getLsbD_high {n m : Nat} (x : BitVec n) (y : BitVec m) (i : Nat) :
    (x ++ y).getLsbD (m + i) = x.getLsbD i := by
  simp [BitVec.getLsbD_append]

theorem getLsbD_low {n m : Nat} (x : BitVec n) (y : BitVec m) (i : Nat) (h : i < m) :
    (x ++ y).getLsbD i = y.getLsbD i := by
  simp [BitVec.getLsbD_append, h]

/-- The two halves of a split literal put together again. -/
theorem append_extract {n m : Nat} (k : BitVec (n + m)) : k.extractLsb' m n ++ k.extractLsb' 0 m = k := by
  apply BitVec.eq_of_getLsbD_eq
  intro i hi
  rw [BitVec.getLsbD_append]
  split
  · rename_i h
    simp [h]
  · rename_i h
    have h1 : i - m < n := by omega
    have h2 : m + (i - m) = i := by omega
    simp [h1, h2]

theorem append_and {n m : Nat} (x p : BitVec n) (y q : BitVec m) : (x ++ y) &&& (p ++ q) = (x &&& p) ++ (y &&& q) := by
  apply BitVec.eq_of_getLsbD_eq
  intro i hi
  by_cases h : i < m <;> simp [BitVec.getLsbD_append, h]

/-- Keeping the upper part of two. -/
theorem and_upper {n m : Nat} (x : BitVec n) (y : BitVec m) : (x ++ y) &&& (BitVec.allOnes n ++ 0#m) = x ++ 0#m := by
  rw [append_and, BitVec.and_allOnes, BitVec.and_zero]

/-! ### The formats (R111): fixed bits and fields -/

theorem wordFDA_fixed (op : BitVec 6) (f : Byte) (d : Dest) (a : Access) :
    wordFDA op f d a &&& 0xFC00 = op ++ 0#1 ++ 0#1 ++ 0#8 := by
  have h : (0xFC00 : Word) = BitVec.allOnes 6 ++ 0#1 ++ 0#1 ++ 0#8 := by decide
  rw [h]
  refine (append_and _ _ _ _).trans ?_
  rw [append_and, append_and, BitVec.and_allOnes, BitVec.and_zero, BitVec.and_zero, BitVec.and_zero]

theorem wordFA_fixed (op : BitVec 7) (f : Byte) (a : Access) : wordFA op f a &&& 0xFE00 = op ++ 0#1 ++ 0#8 := by
  have h : (0xFE00 : Word) = BitVec.allOnes 7 ++ 0#1 ++ 0#8 := by decide
  rw [h]
  refine (append_and _ _ _ _).trans ?_
  rw [append_and, BitVec.and_allOnes, BitVec.and_zero, BitVec.and_zero]

theorem wordFBA_fixed (op : BitVec 4) (f : Byte) (b : BitVec 3) (a : Access) :
    wordFBA op f b a &&& 0xF000 = op ++ 0#3 ++ 0#1 ++ 0#8 := by
  have h : (0xF000 : Word) = BitVec.allOnes 4 ++ 0#3 ++ 0#1 ++ 0#8 := by decide
  rw [h]
  refine (append_and _ _ _ _).trans ?_
  rw [append_and, append_and, BitVec.and_allOnes, BitVec.and_zero, BitVec.and_zero, BitVec.and_zero]

theorem wordOp8_fixed (op k : Byte) : wordOp8 op k &&& 0xFF00 = op ++ 0#8 :=
  and_upper op k

theorem wordBr11_fixed (op : BitVec 5) (n : BitVec 11) : wordBr11 op n &&& 0xF800 = op ++ 0#11 :=
  and_upper op n

theorem wordFsrK6_fixed (op : Byte) (f : BitVec 2) (k : BitVec 6) : wordFsrK6 op f k &&& 0xFFC0 = op ++ f ++ 0#6 :=
  and_upper (op ++ f) k

theorem wordSecond_fixed (t : BitVec 12) : wordSecond t &&& 0xF000 = 0xF000 :=
  and_upper 0b1111#4 t

theorem wordCall_fixed (k : BitVec 20) (s : Bool) :
    (0b1110110#7 ++ fastBit s ++ k.extractLsb' 0 8 : Word) &&& 0xFE00 = 0b1110110#7 ++ 0#1 ++ 0#8 := by
  have h : (0xFE00 : Word) = BitVec.allOnes 7 ++ 0#1 ++ 0#8 := by decide
  rw [h]
  refine (append_and _ _ _ _).trans ?_
  rw [append_and, BitVec.and_allOnes, BitVec.and_zero, BitVec.and_zero]

theorem wordFDA_low8 (op : BitVec 6) (f : Byte) (d : Dest) (a : Access) : Word.low8 (wordFDA op f d a) = f :=
  extract_low _ _

theorem wordFDA_destBit (op : BitVec 6) (f : Byte) (d : Dest) (a : Access) : Word.destBit (wordFDA op f d a) = d := by
  have h : (wordFDA op f d a).getLsbD 9 = d.bit.getLsbD 0 :=
    ((getLsbD_high _ _ 1).trans (getLsbD_high _ _ 0)).trans (getLsbD_low _ _ 0 (by decide))
  unfold Word.destBit
  rw [h]
  cases d <;> rfl

theorem wordFDA_accessBit (op : BitVec 6) (f : Byte) (d : Dest) (a : Access) :
    Word.accessBit (wordFDA op f d a) = a := by
  have h : (wordFDA op f d a).getLsbD 8 = a.bit.getLsbD 0 :=
    (getLsbD_high _ _ 0).trans (getLsbD_low _ _ 0 (by decide))
  unfold Word.accessBit
  rw [h]
  cases a <;> rfl

theorem wordFA_low8 (op : BitVec 7) (f : Byte) (a : Access) : Word.low8 (wordFA op f a) = f :=
  extract_low _ _

theorem wordFA_accessBit (op : BitVec 7) (f : Byte) (a : Access) : Word.accessBit (wordFA op f a) = a := by
  have h : (wordFA op f a).getLsbD 8 = a.bit.getLsbD 0 :=
    (getLsbD_high _ _ 0).trans (getLsbD_low _ _ 0 (by decide))
  unfold Word.accessBit
  rw [h]
  cases a <;> rfl

theorem wordFBA_low8 (op : BitVec 4) (f : Byte) (b : BitVec 3) (a : Access) : Word.low8 (wordFBA op f b a) = f :=
  extract_low _ _

theorem wordFBA_bitNumber (op : BitVec 4) (f : Byte) (b : BitVec 3) (a : Access) :
    Word.bitNumber (wordFBA op f b a) = b :=
  ((extract_in_high _ _ 1 3).trans (extract_in_high _ _ 0 3)).trans (extract_low _ _)

theorem wordFBA_accessBit (op : BitVec 4) (f : Byte) (b : BitVec 3) (a : Access) :
    Word.accessBit (wordFBA op f b a) = a := by
  have h : (wordFBA op f b a).getLsbD 8 = a.bit.getLsbD 0 :=
    (getLsbD_high _ _ 0).trans (getLsbD_low _ _ 0 (by decide))
  unfold Word.accessBit
  rw [h]
  cases a <;> rfl

theorem wordOp8_low8 (op k : Byte) : Word.low8 (wordOp8 op k) = k :=
  extract_low _ _

theorem wordBr11_low11 (op : BitVec 5) (n : BitVec 11) : (wordBr11 op n).extractLsb' 0 11 = n :=
  extract_low _ _

theorem wordFsrK6_number (op : Byte) (f : BitVec 2) (k : BitVec 6) : (wordFsrK6 op f k).extractLsb' 6 2 = f :=
  (extract_in_high _ _ 0 2).trans (extract_low _ _)

theorem wordFsrK6_literal (op : Byte) (f : BitVec 2) (k : BitVec 6) : (wordFsrK6 op f k).extractLsb' 0 6 = k :=
  extract_low _ _

theorem wordSecond_low12 (t : BitVec 12) : Word.low12 (wordSecond t) = t :=
  extract_low _ _

/-- A word is read back from its bytes in memory order (R71). -/
theorem wordOfBytes_bytesOfWord (w : Word) : wordOfBytes w.low8 (w.extractLsb' 8 8) = w :=
  append_extract (n := 8) (m := 8) w

/-! ### One row for one word (R119, R120) -/

/-- Two rows disagree on a bit that both fix. -/
def Row.apart (r q : Row) : Bool := r.pattern &&& q.mask != q.pattern &&& r.mask

theorem Row.not_fits_both {r q : Row} (h : r.apart q = true) {w : Word} (hr : r.fits w = true) : q.fits w = false := by
  rw [← Bool.not_eq_true]
  intro hq
  simp only [Row.fits, Row.apart, beq_iff_eq, bne_iff_ne, ne_eq] at *
  rw [← hr, ← hq] at h
  exact h (by ac_rfl)

theorem Row.apart_symm {r q : Row} (h : r.apart q = true) : q.apart r = true := by
  simp only [Row.apart, bne_iff_ne, ne_eq] at *
  exact fun h' => h h'.symm

/-- The element of a list of mutually exclusive ones that satisfies a test is the one a search finds. -/
theorem find_of_pairwise {α : Type} (p : α → Bool) (l : List α) (hl : l.Pairwise fun a b => p a = true → p b = false)
    {x : α} (hx : x ∈ l) (hp : p x = true) : l.find? p = some x := by
  induction l with
  | nil => cases hx
  | cons y l ih =>
    obtain ⟨hy, hl⟩ := List.pairwise_cons.mp hl
    rcases List.mem_cons.mp hx with rfl | hx
    · exact List.find?_cons_of_pos hp
    · have hpy : p y = false := by
        by_contra h
        have := hy x hx (by simpa using h)
        simp [hp] at this
      rw [List.find?_cons_of_neg (by simp [hpy])]
      exact ih hl hx

theorem opcodeRows_apart : opcodeRows.Pairwise fun r q => r.apart q = true := by
  decide

/-- A row that fits a word is the row the decoder selects. -/
theorem lookupRow_of_fits {r : Row} {w : Word} (hr : r ∈ opcodeRows) (hf : r.fits w = true) : lookupRow w = some r :=
  find_of_pairwise _ _ (opcodeRows_apart.imp fun h h' => Row.not_fits_both h h') hr hf

/-! ### The two stages of decoding -/

theorem decodeFirst_of_row {xinst : Bool} {w : Word} {r : Row} (h : lookupRow w = some r)
    (hx : (r.extended && !xinst) = false) : decodeFirst xinst w = .ok r := by
  simp [decodeFirst, h, hx]

theorem decodeWords_of_row {xinst : Bool} {w v : Word} {r : Row} (h : lookupRow w = some r)
    (hx : (r.extended && !xinst) = false) : decodeWords xinst w v = decodeSecond r w v := by
  simp [decodeWords, decodeFirst_of_row h hx]

theorem decodeSecond_one {r : Row} (h : r.two = false) (w v : Word) : decodeSecond r w v = .ok (r.build w 0) := by
  simp [decodeSecond, h]

theorem decodeSecond_two {r : Row} (h : r.two = true) (w : Word) {v : Word} (hv : v &&& r.mask2 = r.pattern2) :
    decodeSecond r w v = .ok (r.build w v) := by
  simp [decodeSecond, h, hv]

/-- A one-word row does not look at the second word. -/
theorem decodeSecond_ok {r : Row} {w v : Word} {i : Instr} (h : decodeSecond r w v = .ok i) :
    i = r.build w (if r.two then v else 0) := by
  unfold decodeSecond at h
  split at h
  · split at h
    · cases h; simp [*]
    · cases h
  · cases h; simp [*]

end Sys2Proof
end

