-- ==== Sys2Proof/Safety.lean ====
section
/-! DEFINITION. What counts as a run and a safe state: launch premises and the end of a run (70_reset_and_hazards.md R316,
R317), the invariant of the state, and, in the words of the rules, what an instruction reads, stores to and may change. -/

namespace Sys2Proof

/-! ### What an instruction is, as syntax -/

/-- The file operand of a byte- or bit-oriented instruction (all but MOVFF). -/
def Instr.fileOperand : Instr → Option (Byte × Access)
  | .addwf f _ a | .addwfc f _ a | .andwf f _ a | .clrf f a | .comf f _ a | .cpfseq f a | .cpfsgt f a | .cpfslt f a
  | .decf f _ a | .decfsz f _ a | .dcfsnz f _ a | .incf f _ a | .incfsz f _ a | .infsnz f _ a | .iorwf f _ a
  | .movf f _ a | .movwf f a | .mulwf f a | .negf f a | .rlcf f _ a | .rlncf f _ a | .rrcf f _ a | .rrncf f _ a
  | .setf f a | .subfwb f _ a | .subwf f _ a | .subwfb f _ a | .swapf f _ a | .tstfsz f a | .xorwf f _ a
  | .bcf f _ a | .bsf f _ a | .btfsc f _ a | .btfss f _ a | .btg f _ a => some (f, a)
  | _ => none

/-- Whether a byte- or bit-oriented instruction puts its result in the register it names (R140, R180). -/
def Instr.storesToFile : Instr → Bool
  | .addwf _ d _ | .addwfc _ d _ | .andwf _ d _ | .comf _ d _ | .decf _ d _ | .decfsz _ d _ | .dcfsnz _ d _
  | .incf _ d _ | .incfsz _ d _ | .infsnz _ d _ | .iorwf _ d _ | .movf _ d _ | .rlcf _ d _ | .rlncf _ d _
  | .rrcf _ d _ | .rrncf _ d _ | .subfwb _ d _ | .subwf _ d _ | .subwfb _ d _ | .swapf _ d _ | .xorwf _ d _ =>
    decide (d = .f)
  | .clrf .. | .movwf .. | .negf .. | .setf .. | .bcf .. | .bsf .. | .btg .. => true
  | _ => false

/-- Whether an instruction names WREG as its destination (10_state.md R20): `d = 0`, and the instructions R20 lists. -/
def Instr.writesWreg : Instr → Bool
  | .addwf _ d _ | .addwfc _ d _ | .andwf _ d _ | .comf _ d _ | .decf _ d _ | .decfsz _ d _ | .dcfsnz _ d _
  | .incf _ d _ | .incfsz _ d _ | .infsnz _ d _ | .iorwf _ d _ | .movf _ d _ | .rlcf _ d _ | .rlncf _ d _
  | .rrcf _ d _ | .rrncf _ d _ | .subfwb _ d _ | .subwf _ d _ | .subwfb _ d _ | .swapf _ d _ | .xorwf _ d _ =>
    decide (d = .w)
  | .addlw .. | .andlw .. | .iorlw .. | .movlw .. | .sublw .. | .xorlw .. | .retlw .. | .daw => true
  | _ => false

/-- The eight instructions of the extended set (00_scope.md R2, 45_extended.md R260). -/
def Instr.isExtended : Instr → Bool
  | .addfsr .. | .addulnk .. | .callw | .movsf .. | .movss .. | .pushl .. | .subfsr .. | .subulnk .. => true
  | _ => false

/-- The instructions that push a return address (42_control.md R190, R207). -/
def Instr.pushes : Instr → Bool
  | .call .. | .rcall .. | .push | .callw => true
  | _ => false

/-- The instructions that pop the return stack (R190, R206). -/
def Instr.pops : Instr → Bool
  | .pop | .ret .. | .retlw .. | .retfie .. | .addulnk .. | .subulnk .. => true
  | _ => false

/-- The instructions that pass over the next one on a condition (40_byte_oriented.md R141, 41_bit_oriented.md R183, R184). -/
def Instr.maySkip : Instr → Bool
  | .cpfseq .. | .cpfsgt .. | .cpfslt .. | .tstfsz .. | .btfsc .. | .btfss .. | .decfsz .. | .dcfsnz .. | .incfsz ..
  | .infsnz .. => true
  | _ => false

/-- The flags an instruction writes by its own rule (10_state.md R54). -/
structure FlagSet where
  n : Bool := false
  ov : Bool := false
  z : Bool := false
  dc : Bool := false
  c : Bool := false
deriving DecidableEq, Repr

/-- The table of R54, as far as it concerns the arithmetic flags. -/
def Instr.flagsWritten : Instr → FlagSet
  | .addwf .. | .addwfc .. | .decf .. | .incf .. | .negf .. | .subfwb .. | .subwf .. | .subwfb .. | .addlw ..
  | .sublw .. => { n := true, ov := true, z := true, dc := true, c := true }
  | .rlcf .. | .rrcf .. => { n := true, z := true, c := true }
  | .andwf .. | .comf .. | .iorwf .. | .movf .. | .rlncf .. | .rrncf .. | .xorwf .. | .andlw .. | .iorlw ..
  | .xorlw .. => { n := true, z := true }
  | .clrf .. => { z := true }
  | .daw => { c := true }
  | _ => {}

/-- Whether an instruction saves the shadows (10_state.md R41): a call with `s = 1`. -/
def Instr.savesShadow : Instr → Bool
  | .call _ s => s
  | _ => false

/-- Whether an instruction is one of the eight table operations, all of which may move TBLPTR (44_table.md R245). -/
def Instr.isTableOp : Instr → Bool
  | .tblrd | .tblrdPostInc | .tblrdPostDec | .tblrdPreInc | .tblwt | .tblwtPostInc | .tblwtPostDec | .tblwtPreInc => true
  | _ => false

/-- Whether an instruction writes FSR `n` by its own rule (10_state.md R32): those that name an FSR by number, and the
four that use FSR2. -/
def Instr.writesFsr (n : BitVec 2) : Instr → Bool
  | .lfsr f _ | .addfsr f _ | .subfsr f _ => decide (f = n)
  | .addulnk _ | .subulnk _ | .pushl _ => decide (n = 2)
  | _ => false

/-- Whether an instruction restores the shadows (10_state.md R41): a return with `s = 1`. -/
def Instr.restoresShadow : Instr → Bool
  | .ret s | .retfie s => s
  | _ => false

end Sys2Proof

namespace Sys2Proof.Machine

/-! ### Launch and the end of a run -/

/-- The launch parameters of R316: `STOP_ADDR` and `RESET_ENDS_RUN`. -/
structure Launch where
  stopAddr : Option ProgAddr := none
  resetEndsRun : Bool := false
deriving DecidableEq, Repr

/-- `PowerOnState` (R313): the values that power-on gives; the registers it gives none are left out. -/
def powerOnState (s : State) : Bool :=
  decide (s.pc = 0 ∧ s.sp = 0 ∧ s.stkful = false ∧ s.stkunf = false ∧ s.bsr = 0 ∧ s.pclath = 0 ∧ s.pclatu = 0 ∧
    s.tblptr = 0 ∧ s.tablat = 0 ∧ s.fsr0.extractLsb' 8 4 = 0#4 ∧ s.fsr1.extractLsb' 8 4 = 0#4 ∧
    s.fsr2.extractLsb' 8 4 = 0#4) &&
  decide (s.gieh = false ∧ s.giel = false ∧ s.rcon.ipen = false ∧ s.rcon.ri = true ∧ s.rcon.timeOut = true ∧
    s.rcon.powerDown = true ∧ s.rcon.por = false ∧ s.rcon.bor = false ∧ s.runState = .running ∧ s.wdtCounter = 0 ∧
    s.wdtPostscaler = 0 ∧ s.ram = [] ∧ s.hold = [])

/-- `ImageLoaded`: the program image occupies 0x000000 up to its end without a hole, below `PROG_BYTES`. That it does not
change is `StepKeepsProgramAndConfiguration`. -/
def imageLoaded (s : State) : Bool :=
  decide (s.prog.map Prod.fst = List.range s.prog.length) && decide (s.prog.length ≤ s.cfg.progBytes)

/-- `ConfigFixed`: the parameters are the ones a claim states, the watchdog off. -/
def configFixed (c : Config) (s : State) : Bool := decide (s.cfg = c) && !c.wdten

/-- `NoInterruptSource` (60_exceptions.md R294): no interrupt is requested, now or later. -/
def noInterruptSource (s : State) : Bool :=
  decide (s.requests = {}) &&
    s.env.all fun ms => ms.all fun m =>
      match m with
      | .request _ => false
      | .withdraw _ | .wdtTimeout | .masterClear | .powerOn => true

/-- `NoExternalReset` (R312): no power event and no master-clear, now or later; the watchdog's resets need `WDTEN`. -/
def noExternalReset (s : State) : Bool :=
  s.env.all fun ms => ms.all fun m =>
    match m with
    | .masterClear | .powerOn => false
    | .request _ | .withdraw _ | .wdtTimeout => true

/-- The launch premises of the admitted model (R317), the configuration `c` and, where a claim states one, the launch state
`l` being the claim's. `DebugOff` and `NoFaultRecorded` hold of every state: the model has no debug unit (60_exceptions.md
R302), and a fault gives the state no successor (00_scope.md R11). -/
def admittedLaunch (c : Config) (l : Option State) (s : State) : Bool :=
  c.admitted && (match l with
    | none => powerOnState s
    | some t => decide (s = t)) &&
  imageLoaded s && configFixed c s && noInterruptSource s && noExternalReset s

/-- The instruction the next step executes, if it executes one. -/
def nextInstr (s : State) : Option Instr :=
  match turn s with
  | .instruction t => (fetch t).toOption
  | .reset _ _ | .interrupt _ _ | .asleep _ => none

/-- A run has ended at this instruction boundary (R316); `justReset` says that a `RESET` has just executed. -/
def runEnded (l : Launch) (justReset : Bool) (s : State) : Bool :=
  decide (s.runState = .sleeping) || decide (l.stopAddr = some s.pc) || (l.resetEndsRun && justReset)

/-- How a run of bounded length comes out. -/
inductive RunOutcome where
  /-- It ended, in this state. -/
  | ended (s : State)
  /-- A step was a fault: never an end (R316). -/
  | faulted (f : Fault)
  /-- A step was refused. -/
  | refused (r : Refusal)
  /-- It goes on. -/
  | going (s : State)
deriving DecidableEq, Repr

/-- At most `k` steps, stopping at the end of the run (R316). -/
def runLaunch (l : Launch) : Nat → Bool → State → RunOutcome
  | 0, justReset, s => if runEnded l justReset s then .ended s else .going s
  | k + 1, justReset, s =>
    if runEnded l justReset s then .ended s
    else
      match step s with
      | .next t => runLaunch l k (decide (nextInstr s = some .reset)) t
      | .fault f => .faulted f
      | .refused r => .refused r

/-! ### The invariant -/

/-- What every reachable state satisfies: pc even (10_state.md R34); the memories in canonical form; only RAM that exists,
only holding latches that exist, only program addresses of 21 bits are listed. -/
def State.Inv (s : State) : Prop :=
  s.pc.getLsbD 0 = false ∧ s.ram.wf ∧ s.prog.wf ∧ s.hold.wf ∧ 0 < s.cfg.holdBytes ∧
    (∀ c ∈ s.ram, c.1 < s.cfg.ramBytes) ∧ (∀ c ∈ s.hold, c.1 < s.cfg.holdBytes) ∧ ∀ c ∈ s.prog, c.1 < 2 ^ 21

/-! ### Which accesses go through -/

/-- The data address an access at `a` reaches in the end: where its FSR points, for a virtual register (R82). -/
def targetAddr (s : State) (a : DataAddr) : DataAddr :=
  match coreEntry a with
  | some (.virtual k n) => (indirectTarget s k n).1
  | _ => a

/-- Whether the model gives a data address a location (R81, R83, R87): a core or virtual register, RAM, or, outside the
admitted model, unimplemented memory. Only peripheral registers are left. -/
def addrInScope (c : Config) (a : DataAddr) : Bool :=
  (coreEntry a).isSome || decide (a.toNat < c.ramBytes) || (!c.admitted && decide (a < c.sfrBase))

/-- Whether an operand has a location: it is no virtual register reached by indexed literal offset (R79), and the
address it reaches in the end is in scope. -/
def operandInScope (s : State) (f : Byte) (a : Access) : Bool :=
  !(indexedMode s f a && isVirtual (dataAddr s f a)) && addrInScope s.cfg (targetAddr s (dataAddr s f a))

/-- Whether a location can be read (R52, R84, R85): always, outside the admitted model. -/
def locReadable (ws : Words) (s : State) : Loc → Bool
  | .ram a => !s.cfg.admitted || (s.ram.read a.toNat).isSome
  | .reg r => !s.cfg.admitted || decide (r ≠ .pcl) || decide (ws = .one)
  | .null => true

/-- Whether a byte can be written to a location (R38, R46). -/
def locWritable (s : State) (v : Byte) : Loc → Bool
  | .reg .intcon => decide (v.extractLsb' 3 3 = 0)
  | .reg .stkptr => !s.cfg.admitted
  | .reg .tosu | .reg .tosh | .reg .tosl => !s.cfg.admitted || decide (s.sp ≠ 0)
  | _ => true

/-- The reserved first words, as 30_encoding.md R122 lists them. -/
def reservedWord (w : Word) : Bool :=
  decide (w = 0x0001) || decide (w = 0x0002) || (decide (0x0015 ≤ w) && decide (w ≤ 0x00FE)) ||
    (decide (0x0110 ≤ w) && decide (w ≤ 0x01FF)) || (decide (0xEE30 ≤ w) && decide (w ≤ 0xEEFF))

/-- The first words of the extended set, as 30_encoding.md R124 lists them. -/
def extendedWord (w : Word) : Bool := decide (w = 0x0014) || (decide (0xE800 ≤ w) && decide (w ≤ 0xEBFF))

/-- The first words of `LFSR`, ff = 11 left out (30_encoding.md R112, R122). -/
def lfsrWord (w : Word) : Bool := decide (0xEE00 ≤ w) && decide (w ≤ 0xEE2F)

/-- The first words of two-word instructions (30_encoding.md R112): MOVFF, CALL, GOTO, LFSR, and with `XINST = 1` MOVSF
and MOVSS. -/
def twoWordFirst (xinst : Bool) (w : Word) : Bool :=
  decide (w.extractLsb' 12 4 = 0b1100) || decide (w.extractLsb' 9 7 = 0b1110110) ||
    decide (w.extractLsb' 8 8 = 0b11101111) || lfsrWord w || (xinst && decide (w.extractLsb' 8 8 = 0b11101011))

/-- Whether a second word has the form its first word asks for (30_encoding.md R123). -/
def goodSecondWord (w0 w1 : Word) : Bool :=
  decide (w1.extractLsb' 12 4 = 0b1111) && (!lfsrWord w0 || decide (w1.extractLsb' 8 8 = 0b11110000))

/-! ### Where a result goes -/

/-- An outcome that puts a result where `d` says, the flags being the result's (40_byte_oriented.md R140), `u` the state
after the operand was read: WREG; or the operand's own location, which must take the byte. STATUS as the destination is
another matter (10_state.md R51). -/
def PutsWithFlags (d : Dest) (l : Loc) (u : State) (r : AluResult) (o : Result) : Prop :=
  (d = .w → o = .next { u with wreg := r.value, flags := r.flags }) ∧
    (d = .f → l ≠ .reg .status → locWritable u r.value l = true →
      ∃ t, locWrite { u with flags := r.flags } l r.value = .ok t ∧ o = .next t)

/-- An outcome that puts a byte where `d` says; no flag is written but by a byte that goes to STATUS. -/
def PutsByte (d : Dest) (l : Loc) (u : State) (r : Byte) (o : Result) : Prop :=
  (d = .w → o = .next { u with wreg := r }) ∧
    (d = .f → locWritable u r l = true → ∃ t, locWrite u l r = .ok t ∧ o = .next t)

/-- A state at the instruction after `pc0`, or, having passed over that one's first word, two bytes further on (R141);
`skipped` keeps the difference for R286. -/
def skipTo (t : State) (pc0 : ProgAddr) (skips : Bool) : State :=
  { t with pc := if skips then pc0 + 4 else pc0 + 2, skipped := skips }

/-- An outcome that puts a byte where `d` says and then skips or not, the instruction being at `pc0`. -/
def PutsByteThenSkips (d : Dest) (l : Loc) (u : State) (r : Byte) (pc0 : ProgAddr) (skips : Bool) (o : Result) : Prop :=
  (d = .w → o = .next (skipTo { u with wreg := r } pc0 skips)) ∧
    (d = .f → l ≠ .reg .pcl → locWritable u r l = true →
      ∃ t, locWrite u l r = .ok t ∧ o = .next (skipTo t pc0 skips))

/-- A resolution that reaches where a pointer says (20_memory.md R82): `t` the target, `p` FSR `n` afterwards. A target that
is itself a virtual register is `Null`; any other is resolved directly, and stops where that stops. -/
def ReachesThrough (s : State) (a : DataAddr) (n : FsrNum) (t p : DataAddr) : Prop :=
  (isVirtual t = true → resolve s a = .ok ⟨.null, s.setFsr n p⟩) ∧
    (isVirtual t = false →
      (∀ l, resolveDirect s t = .ok l → resolve s a = .ok ⟨l, s.setFsr n p⟩) ∧
        ∀ e, resolveDirect s t = .error e → resolve s a = .error e)

/-! ### What an instruction reads, stores to and may change -/

/-- The location of a file operand, pc already past the instruction. -/
def operandLoc (s : State) (f : Byte) (a : Access) : Option Loc :=
  match resolveOperand (s.advance 2) f a with
  | .ok r => some r.loc
  | .error _ => none

/-- The location a source of `MOVFF` or `MOVSF`, once read, leaves to its destination (R86). -/
def moveDest (src : Except Fault Resolved) (fd : DataAddr) : Option Loc :=
  match src with
  | .error _ => none
  | .ok x =>
    match locRead .two x.st x.loc with
    | .error _ => none
    | .ok y =>
      match resolve y.2 fd with
      | .error _ => none
      | .ok z => some z.loc

/-- The location an FSR2-based address is. -/
def indexedLoc (s : State) (z : BitVec 7) : Option Loc :=
  match resolveIndexed s z with
  | .error _ => none
  | .ok l => some l

/-- The location an instruction stores to, computed as its meaning computes it; none if it stores to no location. -/
def storeLoc (i : Instr) (s : State) : Option Loc :=
  match i with
  | .movff fs fd => moveDest (resolve (s.advance 4) fs) fd
  | .movsf zs fd =>
    match indexedLoc (s.advance 4) zs with
    | none => none
    | some l => moveDest (.ok ⟨l, s.advance 4⟩) fd
  | .movss _ zd => indexedLoc (s.advance 4) zd
  | .pushl _ =>
    match resolveDirect (s.advance 2) s.fsr2 with
    | .error _ => none
    | .ok l => some l
  | i =>
    if i.storesToFile then
      match i.fileOperand with
      | some (f, a) => operandLoc s f a
      | none => none
    else none

/-- The location an instruction reads its file operand from, or its source; `CLRF`, `MOVWF` and `SETF`, which do not read
(20_memory.md R86), answer with the location they write. -/
def sourceLoc (i : Instr) (s : State) : Option Loc :=
  match i with
  | .movff fs _ =>
    match resolve (s.advance 4) fs with
    | .error _ => none
    | .ok x => some x.loc
  | .movsf zs _ | .movss zs _ => indexedLoc (s.advance 4) zs
  | i =>
    match i.fileOperand with
    | some (f, a) => operandLoc s f a
    | none => none

/-- The data addresses an instruction names: those whose use can move an FSR (R82). -/
def namedAddrs (i : Instr) (s : State) : List DataAddr :=
  match i with
  | .movff fs fd => [fs, fd]
  | .movsf _ fd => [fd]
  | i =>
    match i.fileOperand with
    | some (f, a) => [dataAddr s f a]
    | none => []

/-- Whether using an address moves FSR `n` (R82). -/
def movesFsr (n : FsrNum) (a : DataAddr) : Bool :=
  decide (coreEntry a = some (.virtual .postinc n)) || decide (coreEntry a = some (.virtual .postdec n)) ||
    decide (coreEntry a = some (.virtual .preinc n))

/-- There is room for a push: SP below `STACK_DEPTH`, and the push does not fill the stack unless filling it has no effect
but STKFUL (10_state.md R39, R40). -/
def roomToPush (s : State) : Bool :=
  decide (s.sp < s.cfg.stackDepth) &&
    (decide (s.sp + 1 ≠ s.cfg.stackDepth) || s.cfg.admitted || !s.cfg.stvren)

/-- A push resets the device: outside the admitted model, `STVREN = 1`, and it fills the stack or finds it full (R40). -/
def pushResets (s : State) : Bool :=
  !s.cfg.admitted && s.cfg.stvren && decide (s.cfg.stackDepth.toNat ≤ s.sp.toNat + 1)

/-- Whether executing an instruction resets the device: `RESET`, or a return-stack limit with `STVREN = 1` outside the
admitted model (R40, R310). -/
def resetsDevice (i : Instr) (s : State) : Bool :=
  decide (i = .reset) ||
    (i.pushes && pushResets s) || (!s.cfg.admitted && s.cfg.stvren && i.pops && decide (s.sp = 0))

end Sys2Proof.Machine
end

