-- ==== Sys2Proof/Laws/PerInstr.lean ====
section
/-! SUPPORT. Facts about each instruction as syntax: its first word selects a row of the opcode table of its own length and
its own set (30_encoding.md R112, R120, R124). -/

namespace Sys2Proof.Laws

/-- A well-formed instruction's first word selects a row; the row has a second word exactly if the instruction has two
words, and is extended exactly if the instruction is. -/
def EncodedRow.Statement (i : Instr) : Prop :=
  i.wellFormed = true →
    ∃ r, lookupRow (firstWord i) = some r ∧ r.two = decide ((encode i).length = 2) ∧ r.extended = i.isExtended

/-- A row whose fixed bits a word has is the row the word selects. -/
theorem EncodedRow.of_fixed (k : Nat) (hk : k < opcodeRows.length) {w p : Word} (h : w &&& opcodeRows[k].mask = p)
    (hp : p = opcodeRows[k].pattern) : lookupRow w = some opcodeRows[k] :=
  lookupRow_of_fits (List.getElem_mem hk) (by simp [Row.fits, h, hp])

open EncodedRow (of_fixed)

theorem EncodedRow.addwf (f : Byte) (d : Dest) (a : Access) : EncodedRow.Statement (.addwf f d a) := fun _ =>
  ⟨_, of_fixed 0 (by decide) (wordFDA_fixed _ f d a) rfl, rfl, rfl⟩

theorem EncodedRow.addwfc (f : Byte) (d : Dest) (a : Access) : EncodedRow.Statement (.addwfc f d a) := fun _ =>
  ⟨_, of_fixed 1 (by decide) (wordFDA_fixed _ f d a) rfl, rfl, rfl⟩

theorem EncodedRow.andwf (f : Byte) (d : Dest) (a : Access) : EncodedRow.Statement (.andwf f d a) := fun _ =>
  ⟨_, of_fixed 2 (by decide) (wordFDA_fixed _ f d a) rfl, rfl, rfl⟩

theorem EncodedRow.clrf (f : Byte) (a : Access) : EncodedRow.Statement (.clrf f a) := fun _ =>
  ⟨_, of_fixed 3 (by decide) (wordFA_fixed _ f a) rfl, rfl, rfl⟩

theorem EncodedRow.comf (f : Byte) (d : Dest) (a : Access) : EncodedRow.Statement (.comf f d a) := fun _ =>
  ⟨_, of_fixed 4 (by decide) (wordFDA_fixed _ f d a) rfl, rfl, rfl⟩

theorem EncodedRow.cpfseq (f : Byte) (a : Access) : EncodedRow.Statement (.cpfseq f a) := fun _ =>
  ⟨_, of_fixed 5 (by decide) (wordFA_fixed _ f a) rfl, rfl, rfl⟩

theorem EncodedRow.cpfsgt (f : Byte) (a : Access) : EncodedRow.Statement (.cpfsgt f a) := fun _ =>
  ⟨_, of_fixed 6 (by decide) (wordFA_fixed _ f a) rfl, rfl, rfl⟩

theorem EncodedRow.cpfslt (f : Byte) (a : Access) : EncodedRow.Statement (.cpfslt f a) := fun _ =>
  ⟨_, of_fixed 7 (by decide) (wordFA_fixed _ f a) rfl, rfl, rfl⟩

theorem EncodedRow.decf (f : Byte) (d : Dest) (a : Access) : EncodedRow.Statement (.decf f d a) := fun _ =>
  ⟨_, of_fixed 8 (by decide) (wordFDA_fixed _ f d a) rfl, rfl, rfl⟩

theorem EncodedRow.decfsz (f : Byte) (d : Dest) (a : Access) : EncodedRow.Statement (.decfsz f d a) := fun _ =>
  ⟨_, of_fixed 9 (by decide) (wordFDA_fixed _ f d a) rfl, rfl, rfl⟩

theorem EncodedRow.dcfsnz (f : Byte) (d : Dest) (a : Access) : EncodedRow.Statement (.dcfsnz f d a) := fun _ =>
  ⟨_, of_fixed 10 (by decide) (wordFDA_fixed _ f d a) rfl, rfl, rfl⟩

theorem EncodedRow.incf (f : Byte) (d : Dest) (a : Access) : EncodedRow.Statement (.incf f d a) := fun _ =>
  ⟨_, of_fixed 11 (by decide) (wordFDA_fixed _ f d a) rfl, rfl, rfl⟩

theorem EncodedRow.incfsz (f : Byte) (d : Dest) (a : Access) : EncodedRow.Statement (.incfsz f d a) := fun _ =>
  ⟨_, of_fixed 12 (by decide) (wordFDA_fixed _ f d a) rfl, rfl, rfl⟩

theorem EncodedRow.infsnz (f : Byte) (d : Dest) (a : Access) : EncodedRow.Statement (.infsnz f d a) := fun _ =>
  ⟨_, of_fixed 13 (by decide) (wordFDA_fixed _ f d a) rfl, rfl, rfl⟩

theorem EncodedRow.iorwf (f : Byte) (d : Dest) (a : Access) : EncodedRow.Statement (.iorwf f d a) := fun _ =>
  ⟨_, of_fixed 14 (by decide) (wordFDA_fixed _ f d a) rfl, rfl, rfl⟩

theorem EncodedRow.movf (f : Byte) (d : Dest) (a : Access) : EncodedRow.Statement (.movf f d a) := fun _ =>
  ⟨_, of_fixed 15 (by decide) (wordFDA_fixed _ f d a) rfl, rfl, rfl⟩

theorem EncodedRow.movff (fs fd : DataAddr) : EncodedRow.Statement (.movff fs fd) := fun _ =>
  ⟨_, of_fixed 16 (by decide) (and_upper 0b1100#4 fs) rfl, rfl, rfl⟩

theorem EncodedRow.movwf (f : Byte) (a : Access) : EncodedRow.Statement (.movwf f a) := fun _ =>
  ⟨_, of_fixed 17 (by decide) (wordFA_fixed _ f a) rfl, rfl, rfl⟩

theorem EncodedRow.mulwf (f : Byte) (a : Access) : EncodedRow.Statement (.mulwf f a) := fun _ =>
  ⟨_, of_fixed 18 (by decide) (wordFA_fixed _ f a) rfl, rfl, rfl⟩

theorem EncodedRow.negf (f : Byte) (a : Access) : EncodedRow.Statement (.negf f a) := fun _ =>
  ⟨_, of_fixed 19 (by decide) (wordFA_fixed _ f a) rfl, rfl, rfl⟩

theorem EncodedRow.rlcf (f : Byte) (d : Dest) (a : Access) : EncodedRow.Statement (.rlcf f d a) := fun _ =>
  ⟨_, of_fixed 20 (by decide) (wordFDA_fixed _ f d a) rfl, rfl, rfl⟩

theorem EncodedRow.rlncf (f : Byte) (d : Dest) (a : Access) : EncodedRow.Statement (.rlncf f d a) := fun _ =>
  ⟨_, of_fixed 21 (by decide) (wordFDA_fixed _ f d a) rfl, rfl, rfl⟩

theorem EncodedRow.rrcf (f : Byte) (d : Dest) (a : Access) : EncodedRow.Statement (.rrcf f d a) := fun _ =>
  ⟨_, of_fixed 22 (by decide) (wordFDA_fixed _ f d a) rfl, rfl, rfl⟩

theorem EncodedRow.rrncf (f : Byte) (d : Dest) (a : Access) : EncodedRow.Statement (.rrncf f d a) := fun _ =>
  ⟨_, of_fixed 23 (by decide) (wordFDA_fixed _ f d a) rfl, rfl, rfl⟩

theorem EncodedRow.setf (f : Byte) (a : Access) : EncodedRow.Statement (.setf f a) := fun _ =>
  ⟨_, of_fixed 24 (by decide) (wordFA_fixed _ f a) rfl, rfl, rfl⟩

theorem EncodedRow.subfwb (f : Byte) (d : Dest) (a : Access) : EncodedRow.Statement (.subfwb f d a) := fun _ =>
  ⟨_, of_fixed 25 (by decide) (wordFDA_fixed _ f d a) rfl, rfl, rfl⟩

theorem EncodedRow.subwf (f : Byte) (d : Dest) (a : Access) : EncodedRow.Statement (.subwf f d a) := fun _ =>
  ⟨_, of_fixed 26 (by decide) (wordFDA_fixed _ f d a) rfl, rfl, rfl⟩

theorem EncodedRow.subwfb (f : Byte) (d : Dest) (a : Access) : EncodedRow.Statement (.subwfb f d a) := fun _ =>
  ⟨_, of_fixed 27 (by decide) (wordFDA_fixed _ f d a) rfl, rfl, rfl⟩

theorem EncodedRow.swapf (f : Byte) (d : Dest) (a : Access) : EncodedRow.Statement (.swapf f d a) := fun _ =>
  ⟨_, of_fixed 28 (by decide) (wordFDA_fixed _ f d a) rfl, rfl, rfl⟩

theorem EncodedRow.tstfsz (f : Byte) (a : Access) : EncodedRow.Statement (.tstfsz f a) := fun _ =>
  ⟨_, of_fixed 29 (by decide) (wordFA_fixed _ f a) rfl, rfl, rfl⟩

theorem EncodedRow.xorwf (f : Byte) (d : Dest) (a : Access) : EncodedRow.Statement (.xorwf f d a) := fun _ =>
  ⟨_, of_fixed 30 (by decide) (wordFDA_fixed _ f d a) rfl, rfl, rfl⟩

theorem EncodedRow.bcf (f : Byte) (b : BitVec 3) (a : Access) : EncodedRow.Statement (.bcf f b a) := fun _ =>
  ⟨_, of_fixed 31 (by decide) (wordFBA_fixed _ f b a) rfl, rfl, rfl⟩

theorem EncodedRow.bsf (f : Byte) (b : BitVec 3) (a : Access) : EncodedRow.Statement (.bsf f b a) := fun _ =>
  ⟨_, of_fixed 32 (by decide) (wordFBA_fixed _ f b a) rfl, rfl, rfl⟩

theorem EncodedRow.btfsc (f : Byte) (b : BitVec 3) (a : Access) : EncodedRow.Statement (.btfsc f b a) := fun _ =>
  ⟨_, of_fixed 33 (by decide) (wordFBA_fixed _ f b a) rfl, rfl, rfl⟩

theorem EncodedRow.btfss (f : Byte) (b : BitVec 3) (a : Access) : EncodedRow.Statement (.btfss f b a) := fun _ =>
  ⟨_, of_fixed 34 (by decide) (wordFBA_fixed _ f b a) rfl, rfl, rfl⟩

theorem EncodedRow.btg (f : Byte) (b : BitVec 3) (a : Access) : EncodedRow.Statement (.btg f b a) := fun _ =>
  ⟨_, of_fixed 35 (by decide) (wordFBA_fixed _ f b a) rfl, rfl, rfl⟩

theorem EncodedRow.bc (n : BitVec 8) : EncodedRow.Statement (.bc n) := fun _ =>
  ⟨_, of_fixed 36 (by decide) (wordOp8_fixed _ n) rfl, rfl, rfl⟩

theorem EncodedRow.bn (n : BitVec 8) : EncodedRow.Statement (.bn n) := fun _ =>
  ⟨_, of_fixed 37 (by decide) (wordOp8_fixed _ n) rfl, rfl, rfl⟩

theorem EncodedRow.bnc (n : BitVec 8) : EncodedRow.Statement (.bnc n) := fun _ =>
  ⟨_, of_fixed 38 (by decide) (wordOp8_fixed _ n) rfl, rfl, rfl⟩

theorem EncodedRow.bnn (n : BitVec 8) : EncodedRow.Statement (.bnn n) := fun _ =>
  ⟨_, of_fixed 39 (by decide) (wordOp8_fixed _ n) rfl, rfl, rfl⟩

theorem EncodedRow.bnov (n : BitVec 8) : EncodedRow.Statement (.bnov n) := fun _ =>
  ⟨_, of_fixed 40 (by decide) (wordOp8_fixed _ n) rfl, rfl, rfl⟩

theorem EncodedRow.bnz (n : BitVec 8) : EncodedRow.Statement (.bnz n) := fun _ =>
  ⟨_, of_fixed 41 (by decide) (wordOp8_fixed _ n) rfl, rfl, rfl⟩

theorem EncodedRow.bov (n : BitVec 8) : EncodedRow.Statement (.bov n) := fun _ =>
  ⟨_, of_fixed 42 (by decide) (wordOp8_fixed _ n) rfl, rfl, rfl⟩

theorem EncodedRow.bra (n : BitVec 11) : EncodedRow.Statement (.bra n) := fun _ =>
  ⟨_, of_fixed 43 (by decide) (wordBr11_fixed _ n) rfl, rfl, rfl⟩

theorem EncodedRow.bz (n : BitVec 8) : EncodedRow.Statement (.bz n) := fun _ =>
  ⟨_, of_fixed 44 (by decide) (wordOp8_fixed _ n) rfl, rfl, rfl⟩

theorem EncodedRow.call (k : BitVec 20) (s : Bool) : EncodedRow.Statement (.call k s) := fun _ =>
  ⟨_, of_fixed 45 (by decide) (wordCall_fixed k s) rfl, rfl, rfl⟩

theorem EncodedRow.clrwdt : EncodedRow.Statement (.clrwdt) := fun _ =>
  ⟨_, of_fixed 46 (by decide) (rfl) rfl, rfl, rfl⟩

theorem EncodedRow.daw : EncodedRow.Statement (.daw) := fun _ =>
  ⟨_, of_fixed 47 (by decide) (rfl) rfl, rfl, rfl⟩

theorem EncodedRow.goto (k : BitVec 20) : EncodedRow.Statement (.goto k) := fun _ =>
  ⟨_, of_fixed 48 (by decide) (wordOp8_fixed _ (k.extractLsb' 0 8)) rfl, rfl, rfl⟩

theorem EncodedRow.nop : EncodedRow.Statement (.nop) := fun _ =>
  ⟨_, of_fixed 49 (by decide) (rfl) rfl, rfl, rfl⟩

theorem EncodedRow.nopSecond (x : BitVec 12) : EncodedRow.Statement (.nopSecond x) := fun _ =>
  ⟨_, of_fixed 50 (by decide) (wordSecond_fixed x) rfl, rfl, rfl⟩

theorem EncodedRow.pop : EncodedRow.Statement (.pop) := fun _ =>
  ⟨_, of_fixed 51 (by decide) (rfl) rfl, rfl, rfl⟩

theorem EncodedRow.push : EncodedRow.Statement (.push) := fun _ =>
  ⟨_, of_fixed 52 (by decide) (rfl) rfl, rfl, rfl⟩

theorem EncodedRow.rcall (n : BitVec 11) : EncodedRow.Statement (.rcall n) := fun _ =>
  ⟨_, of_fixed 53 (by decide) (wordBr11_fixed _ n) rfl, rfl, rfl⟩

theorem EncodedRow.reset : EncodedRow.Statement (.reset) := fun _ =>
  ⟨_, of_fixed 54 (by decide) (rfl) rfl, rfl, rfl⟩

theorem EncodedRow.retfie (s : Bool) : EncodedRow.Statement (.retfie s) := fun _ =>
  ⟨_, of_fixed 55 (by decide) (and_upper 0b000000000001000#15 (fastBit s)) rfl, rfl, rfl⟩

theorem EncodedRow.retlw (k : Byte) : EncodedRow.Statement (.retlw k) := fun _ =>
  ⟨_, of_fixed 56 (by decide) (wordOp8_fixed _ k) rfl, rfl, rfl⟩

theorem EncodedRow.ret (s : Bool) : EncodedRow.Statement (.ret s) := fun _ =>
  ⟨_, of_fixed 57 (by decide) (and_upper 0b000000000001001#15 (fastBit s)) rfl, rfl, rfl⟩

theorem EncodedRow.sleep : EncodedRow.Statement (.sleep) := fun _ =>
  ⟨_, of_fixed 58 (by decide) (rfl) rfl, rfl, rfl⟩

theorem EncodedRow.addlw (k : Byte) : EncodedRow.Statement (.addlw k) := fun _ =>
  ⟨_, of_fixed 59 (by decide) (wordOp8_fixed _ k) rfl, rfl, rfl⟩

theorem EncodedRow.andlw (k : Byte) : EncodedRow.Statement (.andlw k) := fun _ =>
  ⟨_, of_fixed 60 (by decide) (wordOp8_fixed _ k) rfl, rfl, rfl⟩

theorem EncodedRow.iorlw (k : Byte) : EncodedRow.Statement (.iorlw k) := fun _ =>
  ⟨_, of_fixed 61 (by decide) (wordOp8_fixed _ k) rfl, rfl, rfl⟩

theorem EncodedRow.lfsr (f : BitVec 2) (k : BitVec 12) : EncodedRow.Statement (.lfsr f k) := by
  intro h
  have hf : f = 0 ∨ f = 1 ∨ f = 2 := by
    revert h
    simp only [Instr.wellFormed]
    revert f
    decide
  rcases hf with rfl | rfl | rfl
  · exact ⟨_, of_fixed 62 (by decide) (and_upper (0b1110111000#10 ++ 0#2) (k.extractLsb' 8 4)) rfl, rfl, rfl⟩
  · exact ⟨_, of_fixed 63 (by decide) (and_upper (0b1110111000#10 ++ 1#2) (k.extractLsb' 8 4)) rfl, rfl, rfl⟩
  · exact ⟨_, of_fixed 64 (by decide) (and_upper (0b1110111000#10 ++ 2#2) (k.extractLsb' 8 4)) rfl, rfl, rfl⟩

theorem EncodedRow.movlb (k : BitVec 4) : EncodedRow.Statement (.movlb k) := fun _ =>
  ⟨_, of_fixed 65 (by decide) (and_upper 0b000000010000#12 k) rfl, rfl, rfl⟩

theorem EncodedRow.movlw (k : Byte) : EncodedRow.Statement (.movlw k) := fun _ =>
  ⟨_, of_fixed 66 (by decide) (wordOp8_fixed _ k) rfl, rfl, rfl⟩

theorem EncodedRow.mullw (k : Byte) : EncodedRow.Statement (.mullw k) := fun _ =>
  ⟨_, of_fixed 67 (by decide) (wordOp8_fixed _ k) rfl, rfl, rfl⟩

theorem EncodedRow.sublw (k : Byte) : EncodedRow.Statement (.sublw k) := fun _ =>
  ⟨_, of_fixed 68 (by decide) (wordOp8_fixed _ k) rfl, rfl, rfl⟩

theorem EncodedRow.xorlw (k : Byte) : EncodedRow.Statement (.xorlw k) := fun _ =>
  ⟨_, of_fixed 69 (by decide) (wordOp8_fixed _ k) rfl, rfl, rfl⟩

theorem EncodedRow.tblrd : EncodedRow.Statement (.tblrd) := fun _ =>
  ⟨_, of_fixed 70 (by decide) (rfl) rfl, rfl, rfl⟩

theorem EncodedRow.tblrdPostInc : EncodedRow.Statement (.tblrdPostInc) := fun _ =>
  ⟨_, of_fixed 71 (by decide) (rfl) rfl, rfl, rfl⟩

theorem EncodedRow.tblrdPostDec : EncodedRow.Statement (.tblrdPostDec) := fun _ =>
  ⟨_, of_fixed 72 (by decide) (rfl) rfl, rfl, rfl⟩

theorem EncodedRow.tblrdPreInc : EncodedRow.Statement (.tblrdPreInc) := fun _ =>
  ⟨_, of_fixed 73 (by decide) (rfl) rfl, rfl, rfl⟩

theorem EncodedRow.tblwt : EncodedRow.Statement (.tblwt) := fun _ =>
  ⟨_, of_fixed 74 (by decide) (rfl) rfl, rfl, rfl⟩

theorem EncodedRow.tblwtPostInc : EncodedRow.Statement (.tblwtPostInc) := fun _ =>
  ⟨_, of_fixed 75 (by decide) (rfl) rfl, rfl, rfl⟩

theorem EncodedRow.tblwtPostDec : EncodedRow.Statement (.tblwtPostDec) := fun _ =>
  ⟨_, of_fixed 76 (by decide) (rfl) rfl, rfl, rfl⟩

theorem EncodedRow.tblwtPreInc : EncodedRow.Statement (.tblwtPreInc) := fun _ =>
  ⟨_, of_fixed 77 (by decide) (rfl) rfl, rfl, rfl⟩

theorem EncodedRow.addfsr (f : BitVec 2) (k : BitVec 6) : EncodedRow.Statement (.addfsr f k) := by
  intro h
  have hf : f = 0 ∨ f = 1 ∨ f = 2 := by
    revert h
    simp only [Instr.wellFormed]
    revert f
    decide
  rcases hf with rfl | rfl | rfl
  · exact ⟨_, of_fixed 78 (by decide) (wordFsrK6_fixed _ 0#2 k) rfl, rfl, rfl⟩
  · exact ⟨_, of_fixed 79 (by decide) (wordFsrK6_fixed _ 1#2 k) rfl, rfl, rfl⟩
  · exact ⟨_, of_fixed 80 (by decide) (wordFsrK6_fixed _ 2#2 k) rfl, rfl, rfl⟩

theorem EncodedRow.addulnk (k : BitVec 6) : EncodedRow.Statement (.addulnk k) := fun _ =>
  ⟨_, of_fixed 81 (by decide) (wordFsrK6_fixed _ 0b11#2 k) rfl, rfl, rfl⟩

theorem EncodedRow.callw : EncodedRow.Statement (.callw) := fun _ =>
  ⟨_, of_fixed 82 (by decide) (rfl) rfl, rfl, rfl⟩

theorem EncodedRow.movsf (zs : BitVec 7) (fd : DataAddr) : EncodedRow.Statement (.movsf zs fd) := fun _ =>
  ⟨_, of_fixed 83 (by decide) (and_upper 0b111010110#9 zs) rfl, rfl, rfl⟩

theorem EncodedRow.movss (zs zd : BitVec 7) : EncodedRow.Statement (.movss zs zd) := fun _ =>
  ⟨_, of_fixed 84 (by decide) (and_upper 0b111010111#9 zs) rfl, rfl, rfl⟩

theorem EncodedRow.pushl (k : Byte) : EncodedRow.Statement (.pushl k) := fun _ =>
  ⟨_, of_fixed 85 (by decide) (wordOp8_fixed _ k) rfl, rfl, rfl⟩

theorem EncodedRow.subfsr (f : BitVec 2) (k : BitVec 6) : EncodedRow.Statement (.subfsr f k) := by
  intro h
  have hf : f = 0 ∨ f = 1 ∨ f = 2 := by
    revert h
    simp only [Instr.wellFormed]
    revert f
    decide
  rcases hf with rfl | rfl | rfl
  · exact ⟨_, of_fixed 86 (by decide) (wordFsrK6_fixed _ 0#2 k) rfl, rfl, rfl⟩
  · exact ⟨_, of_fixed 87 (by decide) (wordFsrK6_fixed _ 1#2 k) rfl, rfl, rfl⟩
  · exact ⟨_, of_fixed 88 (by decide) (wordFsrK6_fixed _ 2#2 k) rfl, rfl, rfl⟩

theorem EncodedRow.subulnk (k : BitVec 6) : EncodedRow.Statement (.subulnk k) := fun _ =>
  ⟨_, of_fixed 89 (by decide) (wordFsrK6_fixed _ 0b11#2 k) rfl, rfl, rfl⟩

end Sys2Proof.Laws
end

