-- ==== Sys2Proof/Laws/State.lean ====
section
/-! SUPPORT. One lemma per field per named update of State: what the update puts there, or that the field is as it was. -/

namespace Sys2Proof.Machine

variable (s : State)

/-! ### Moves of pc, all through setPc -/

@[simp] theorem State.advance_eq (n : ProgAddr) : s.advance n = s.setPc (s.pc + n) := rfl

/-! ### setPc -/

@[simp] theorem State.setPc_pc (a : ProgAddr) : (s.setPc a).pc = evenAddr a := rfl
@[simp] theorem State.setPc_wreg (a : ProgAddr) : (s.setPc a).wreg = s.wreg := rfl
@[simp] theorem State.setPc_flags (a : ProgAddr) : (s.setPc a).flags = s.flags := rfl
@[simp] theorem State.setPc_bsr (a : ProgAddr) : (s.setPc a).bsr = s.bsr := rfl
@[simp] theorem State.setPc_fsr0 (a : ProgAddr) : (s.setPc a).fsr0 = s.fsr0 := rfl
@[simp] theorem State.setPc_fsr1 (a : ProgAddr) : (s.setPc a).fsr1 = s.fsr1 := rfl
@[simp] theorem State.setPc_fsr2 (a : ProgAddr) : (s.setPc a).fsr2 = s.fsr2 := rfl
@[simp] theorem State.setPc_prodh (a : ProgAddr) : (s.setPc a).prodh = s.prodh := rfl
@[simp] theorem State.setPc_prodl (a : ProgAddr) : (s.setPc a).prodl = s.prodl := rfl
@[simp] theorem State.setPc_tblptr (a : ProgAddr) : (s.setPc a).tblptr = s.tblptr := rfl
@[simp] theorem State.setPc_tablat (a : ProgAddr) : (s.setPc a).tablat = s.tablat := rfl
@[simp] theorem State.setPc_pclath (a : ProgAddr) : (s.setPc a).pclath = s.pclath := rfl
@[simp] theorem State.setPc_pclatu (a : ProgAddr) : (s.setPc a).pclatu = s.pclatu := rfl
@[simp] theorem State.setPc_stack (a : ProgAddr) : (s.setPc a).stack = s.stack := rfl
@[simp] theorem State.setPc_sp (a : ProgAddr) : (s.setPc a).sp = s.sp := rfl
@[simp] theorem State.setPc_stkful (a : ProgAddr) : (s.setPc a).stkful = s.stkful := rfl
@[simp] theorem State.setPc_stkunf (a : ProgAddr) : (s.setPc a).stkunf = s.stkunf := rfl
@[simp] theorem State.setPc_shadow (a : ProgAddr) : (s.setPc a).shadow = s.shadow := rfl
@[simp] theorem State.setPc_gieh (a : ProgAddr) : (s.setPc a).gieh = s.gieh := rfl
@[simp] theorem State.setPc_giel (a : ProgAddr) : (s.setPc a).giel = s.giel := rfl
@[simp] theorem State.setPc_rcon (a : ProgAddr) : (s.setPc a).rcon = s.rcon := rfl
@[simp] theorem State.setPc_ram (a : ProgAddr) : (s.setPc a).ram = s.ram := rfl
@[simp] theorem State.setPc_prog (a : ProgAddr) : (s.setPc a).prog = s.prog := rfl
@[simp] theorem State.setPc_hold (a : ProgAddr) : (s.setPc a).hold = s.hold := rfl
@[simp] theorem State.setPc_wdtCounter (a : ProgAddr) : (s.setPc a).wdtCounter = s.wdtCounter := rfl
@[simp] theorem State.setPc_wdtPostscaler (a : ProgAddr) : (s.setPc a).wdtPostscaler = s.wdtPostscaler := rfl
@[simp] theorem State.setPc_runState (a : ProgAddr) : (s.setPc a).runState = s.runState := rfl
@[simp] theorem State.setPc_requests (a : ProgAddr) : (s.setPc a).requests = s.requests := rfl
@[simp] theorem State.setPc_skipped (a : ProgAddr) : (s.setPc a).skipped = s.skipped := rfl
@[simp] theorem State.setPc_cfg (a : ProgAddr) : (s.setPc a).cfg = s.cfg := rfl
@[simp] theorem State.setPc_env (a : ProgAddr) : (s.setPc a).env = s.env := rfl

/-! ### skipIf -/

@[simp] theorem State.skipIf_pc (b : Bool) : (s.skipIf b).pc = evenAddr (if b then s.pc + 2 else s.pc) := rfl
@[simp] theorem State.skipIf_wreg (b : Bool) : (s.skipIf b).wreg = s.wreg := rfl
@[simp] theorem State.skipIf_flags (b : Bool) : (s.skipIf b).flags = s.flags := rfl
@[simp] theorem State.skipIf_bsr (b : Bool) : (s.skipIf b).bsr = s.bsr := rfl
@[simp] theorem State.skipIf_fsr0 (b : Bool) : (s.skipIf b).fsr0 = s.fsr0 := rfl
@[simp] theorem State.skipIf_fsr1 (b : Bool) : (s.skipIf b).fsr1 = s.fsr1 := rfl
@[simp] theorem State.skipIf_fsr2 (b : Bool) : (s.skipIf b).fsr2 = s.fsr2 := rfl
@[simp] theorem State.skipIf_prodh (b : Bool) : (s.skipIf b).prodh = s.prodh := rfl
@[simp] theorem State.skipIf_prodl (b : Bool) : (s.skipIf b).prodl = s.prodl := rfl
@[simp] theorem State.skipIf_tblptr (b : Bool) : (s.skipIf b).tblptr = s.tblptr := rfl
@[simp] theorem State.skipIf_tablat (b : Bool) : (s.skipIf b).tablat = s.tablat := rfl
@[simp] theorem State.skipIf_pclath (b : Bool) : (s.skipIf b).pclath = s.pclath := rfl
@[simp] theorem State.skipIf_pclatu (b : Bool) : (s.skipIf b).pclatu = s.pclatu := rfl
@[simp] theorem State.skipIf_stack (b : Bool) : (s.skipIf b).stack = s.stack := rfl
@[simp] theorem State.skipIf_sp (b : Bool) : (s.skipIf b).sp = s.sp := rfl
@[simp] theorem State.skipIf_stkful (b : Bool) : (s.skipIf b).stkful = s.stkful := rfl
@[simp] theorem State.skipIf_stkunf (b : Bool) : (s.skipIf b).stkunf = s.stkunf := rfl
@[simp] theorem State.skipIf_shadow (b : Bool) : (s.skipIf b).shadow = s.shadow := rfl
@[simp] theorem State.skipIf_gieh (b : Bool) : (s.skipIf b).gieh = s.gieh := rfl
@[simp] theorem State.skipIf_giel (b : Bool) : (s.skipIf b).giel = s.giel := rfl
@[simp] theorem State.skipIf_rcon (b : Bool) : (s.skipIf b).rcon = s.rcon := rfl
@[simp] theorem State.skipIf_ram (b : Bool) : (s.skipIf b).ram = s.ram := rfl
@[simp] theorem State.skipIf_prog (b : Bool) : (s.skipIf b).prog = s.prog := rfl
@[simp] theorem State.skipIf_hold (b : Bool) : (s.skipIf b).hold = s.hold := rfl
@[simp] theorem State.skipIf_wdtCounter (b : Bool) : (s.skipIf b).wdtCounter = s.wdtCounter := rfl
@[simp] theorem State.skipIf_wdtPostscaler (b : Bool) : (s.skipIf b).wdtPostscaler = s.wdtPostscaler := rfl
@[simp] theorem State.skipIf_runState (b : Bool) : (s.skipIf b).runState = s.runState := rfl
@[simp] theorem State.skipIf_requests (b : Bool) : (s.skipIf b).requests = s.requests := rfl
@[simp] theorem State.skipIf_skipped (b : Bool) : (s.skipIf b).skipped = b := rfl
@[simp] theorem State.skipIf_cfg (b : Bool) : (s.skipIf b).cfg = s.cfg := rfl
@[simp] theorem State.skipIf_env (b : Bool) : (s.skipIf b).env = s.env := rfl

/-! ### setFsr -/

@[simp] theorem State.setFsr_pc (n : FsrNum) (v : DataAddr) : (s.setFsr n v).pc = s.pc := by cases n <;> rfl
@[simp] theorem State.setFsr_wreg (n : FsrNum) (v : DataAddr) : (s.setFsr n v).wreg = s.wreg := by cases n <;> rfl
@[simp] theorem State.setFsr_flags (n : FsrNum) (v : DataAddr) : (s.setFsr n v).flags = s.flags := by cases n <;> rfl
@[simp] theorem State.setFsr_bsr (n : FsrNum) (v : DataAddr) : (s.setFsr n v).bsr = s.bsr := by cases n <;> rfl
@[simp] theorem State.setFsr_fsr0 (n : FsrNum) (v : DataAddr) : (s.setFsr n v).fsr0 = if n = .f0 then v else s.fsr0 := by cases n <;> rfl
@[simp] theorem State.setFsr_fsr1 (n : FsrNum) (v : DataAddr) : (s.setFsr n v).fsr1 = if n = .f1 then v else s.fsr1 := by cases n <;> rfl
@[simp] theorem State.setFsr_fsr2 (n : FsrNum) (v : DataAddr) : (s.setFsr n v).fsr2 = if n = .f2 then v else s.fsr2 := by cases n <;> rfl
@[simp] theorem State.setFsr_prodh (n : FsrNum) (v : DataAddr) : (s.setFsr n v).prodh = s.prodh := by cases n <;> rfl
@[simp] theorem State.setFsr_prodl (n : FsrNum) (v : DataAddr) : (s.setFsr n v).prodl = s.prodl := by cases n <;> rfl
@[simp] theorem State.setFsr_tblptr (n : FsrNum) (v : DataAddr) : (s.setFsr n v).tblptr = s.tblptr := by cases n <;> rfl
@[simp] theorem State.setFsr_tablat (n : FsrNum) (v : DataAddr) : (s.setFsr n v).tablat = s.tablat := by cases n <;> rfl
@[simp] theorem State.setFsr_pclath (n : FsrNum) (v : DataAddr) : (s.setFsr n v).pclath = s.pclath := by cases n <;> rfl
@[simp] theorem State.setFsr_pclatu (n : FsrNum) (v : DataAddr) : (s.setFsr n v).pclatu = s.pclatu := by cases n <;> rfl
@[simp] theorem State.setFsr_stack (n : FsrNum) (v : DataAddr) : (s.setFsr n v).stack = s.stack := by cases n <;> rfl
@[simp] theorem State.setFsr_sp (n : FsrNum) (v : DataAddr) : (s.setFsr n v).sp = s.sp := by cases n <;> rfl
@[simp] theorem State.setFsr_stkful (n : FsrNum) (v : DataAddr) : (s.setFsr n v).stkful = s.stkful := by cases n <;> rfl
@[simp] theorem State.setFsr_stkunf (n : FsrNum) (v : DataAddr) : (s.setFsr n v).stkunf = s.stkunf := by cases n <;> rfl
@[simp] theorem State.setFsr_shadow (n : FsrNum) (v : DataAddr) : (s.setFsr n v).shadow = s.shadow := by cases n <;> rfl
@[simp] theorem State.setFsr_gieh (n : FsrNum) (v : DataAddr) : (s.setFsr n v).gieh = s.gieh := by cases n <;> rfl
@[simp] theorem State.setFsr_giel (n : FsrNum) (v : DataAddr) : (s.setFsr n v).giel = s.giel := by cases n <;> rfl
@[simp] theorem State.setFsr_rcon (n : FsrNum) (v : DataAddr) : (s.setFsr n v).rcon = s.rcon := by cases n <;> rfl
@[simp] theorem State.setFsr_ram (n : FsrNum) (v : DataAddr) : (s.setFsr n v).ram = s.ram := by cases n <;> rfl
@[simp] theorem State.setFsr_prog (n : FsrNum) (v : DataAddr) : (s.setFsr n v).prog = s.prog := by cases n <;> rfl
@[simp] theorem State.setFsr_hold (n : FsrNum) (v : DataAddr) : (s.setFsr n v).hold = s.hold := by cases n <;> rfl
@[simp] theorem State.setFsr_wdtCounter (n : FsrNum) (v : DataAddr) : (s.setFsr n v).wdtCounter = s.wdtCounter := by cases n <;> rfl
@[simp] theorem State.setFsr_wdtPostscaler (n : FsrNum) (v : DataAddr) : (s.setFsr n v).wdtPostscaler = s.wdtPostscaler := by cases n <;> rfl
@[simp] theorem State.setFsr_runState (n : FsrNum) (v : DataAddr) : (s.setFsr n v).runState = s.runState := by cases n <;> rfl
@[simp] theorem State.setFsr_requests (n : FsrNum) (v : DataAddr) : (s.setFsr n v).requests = s.requests := by cases n <;> rfl
@[simp] theorem State.setFsr_skipped (n : FsrNum) (v : DataAddr) : (s.setFsr n v).skipped = s.skipped := by cases n <;> rfl
@[simp] theorem State.setFsr_cfg (n : FsrNum) (v : DataAddr) : (s.setFsr n v).cfg = s.cfg := by cases n <;> rfl
@[simp] theorem State.setFsr_env (n : FsrNum) (v : DataAddr) : (s.setFsr n v).env = s.env := by cases n <;> rfl

/-! ### setTos -/

@[simp] theorem State.setTos_pc (v : ProgAddr) : (s.setTos v).pc = s.pc := by unfold State.setTos; split <;> rfl
@[simp] theorem State.setTos_wreg (v : ProgAddr) : (s.setTos v).wreg = s.wreg := by unfold State.setTos; split <;> rfl
@[simp] theorem State.setTos_flags (v : ProgAddr) : (s.setTos v).flags = s.flags := by unfold State.setTos; split <;> rfl
@[simp] theorem State.setTos_bsr (v : ProgAddr) : (s.setTos v).bsr = s.bsr := by unfold State.setTos; split <;> rfl
@[simp] theorem State.setTos_fsr0 (v : ProgAddr) : (s.setTos v).fsr0 = s.fsr0 := by unfold State.setTos; split <;> rfl
@[simp] theorem State.setTos_fsr1 (v : ProgAddr) : (s.setTos v).fsr1 = s.fsr1 := by unfold State.setTos; split <;> rfl
@[simp] theorem State.setTos_fsr2 (v : ProgAddr) : (s.setTos v).fsr2 = s.fsr2 := by unfold State.setTos; split <;> rfl
@[simp] theorem State.setTos_prodh (v : ProgAddr) : (s.setTos v).prodh = s.prodh := by unfold State.setTos; split <;> rfl
@[simp] theorem State.setTos_prodl (v : ProgAddr) : (s.setTos v).prodl = s.prodl := by unfold State.setTos; split <;> rfl
@[simp] theorem State.setTos_tblptr (v : ProgAddr) : (s.setTos v).tblptr = s.tblptr := by unfold State.setTos; split <;> rfl
@[simp] theorem State.setTos_tablat (v : ProgAddr) : (s.setTos v).tablat = s.tablat := by unfold State.setTos; split <;> rfl
@[simp] theorem State.setTos_pclath (v : ProgAddr) : (s.setTos v).pclath = s.pclath := by unfold State.setTos; split <;> rfl
@[simp] theorem State.setTos_pclatu (v : ProgAddr) : (s.setTos v).pclatu = s.pclatu := by unfold State.setTos; split <;> rfl
@[simp] theorem State.setTos_stack (v : ProgAddr) : (s.setTos v).stack = if s.sp = 0 then s.stack else s.stack.setIfInBounds (s.sp.toNat - 1) v := by unfold State.setTos; split <;> rfl
@[simp] theorem State.setTos_sp (v : ProgAddr) : (s.setTos v).sp = s.sp := by unfold State.setTos; split <;> rfl
@[simp] theorem State.setTos_stkful (v : ProgAddr) : (s.setTos v).stkful = s.stkful := by unfold State.setTos; split <;> rfl
@[simp] theorem State.setTos_stkunf (v : ProgAddr) : (s.setTos v).stkunf = s.stkunf := by unfold State.setTos; split <;> rfl
@[simp] theorem State.setTos_shadow (v : ProgAddr) : (s.setTos v).shadow = s.shadow := by unfold State.setTos; split <;> rfl
@[simp] theorem State.setTos_gieh (v : ProgAddr) : (s.setTos v).gieh = s.gieh := by unfold State.setTos; split <;> rfl
@[simp] theorem State.setTos_giel (v : ProgAddr) : (s.setTos v).giel = s.giel := by unfold State.setTos; split <;> rfl
@[simp] theorem State.setTos_rcon (v : ProgAddr) : (s.setTos v).rcon = s.rcon := by unfold State.setTos; split <;> rfl
@[simp] theorem State.setTos_ram (v : ProgAddr) : (s.setTos v).ram = s.ram := by unfold State.setTos; split <;> rfl
@[simp] theorem State.setTos_prog (v : ProgAddr) : (s.setTos v).prog = s.prog := by unfold State.setTos; split <;> rfl
@[simp] theorem State.setTos_hold (v : ProgAddr) : (s.setTos v).hold = s.hold := by unfold State.setTos; split <;> rfl
@[simp] theorem State.setTos_wdtCounter (v : ProgAddr) : (s.setTos v).wdtCounter = s.wdtCounter := by unfold State.setTos; split <;> rfl
@[simp] theorem State.setTos_wdtPostscaler (v : ProgAddr) : (s.setTos v).wdtPostscaler = s.wdtPostscaler := by unfold State.setTos; split <;> rfl
@[simp] theorem State.setTos_runState (v : ProgAddr) : (s.setTos v).runState = s.runState := by unfold State.setTos; split <;> rfl
@[simp] theorem State.setTos_requests (v : ProgAddr) : (s.setTos v).requests = s.requests := by unfold State.setTos; split <;> rfl
@[simp] theorem State.setTos_skipped (v : ProgAddr) : (s.setTos v).skipped = s.skipped := by unfold State.setTos; split <;> rfl
@[simp] theorem State.setTos_cfg (v : ProgAddr) : (s.setTos v).cfg = s.cfg := by unfold State.setTos; split <;> rfl
@[simp] theorem State.setTos_env (v : ProgAddr) : (s.setTos v).env = s.env := by unfold State.setTos; split <;> rfl

/-! ### pushed -/

@[simp] theorem State.pushed_pc (v : ProgAddr) : (s.pushed v).pc = s.pc := by unfold State.pushed; dsimp only; split <;> simp_all
@[simp] theorem State.pushed_wreg (v : ProgAddr) : (s.pushed v).wreg = s.wreg := by unfold State.pushed; dsimp only; split <;> simp_all
@[simp] theorem State.pushed_flags (v : ProgAddr) : (s.pushed v).flags = s.flags := by unfold State.pushed; dsimp only; split <;> simp_all
@[simp] theorem State.pushed_bsr (v : ProgAddr) : (s.pushed v).bsr = s.bsr := by unfold State.pushed; dsimp only; split <;> simp_all
@[simp] theorem State.pushed_fsr0 (v : ProgAddr) : (s.pushed v).fsr0 = s.fsr0 := by unfold State.pushed; dsimp only; split <;> simp_all
@[simp] theorem State.pushed_fsr1 (v : ProgAddr) : (s.pushed v).fsr1 = s.fsr1 := by unfold State.pushed; dsimp only; split <;> simp_all
@[simp] theorem State.pushed_fsr2 (v : ProgAddr) : (s.pushed v).fsr2 = s.fsr2 := by unfold State.pushed; dsimp only; split <;> simp_all
@[simp] theorem State.pushed_prodh (v : ProgAddr) : (s.pushed v).prodh = s.prodh := by unfold State.pushed; dsimp only; split <;> simp_all
@[simp] theorem State.pushed_prodl (v : ProgAddr) : (s.pushed v).prodl = s.prodl := by unfold State.pushed; dsimp only; split <;> simp_all
@[simp] theorem State.pushed_tblptr (v : ProgAddr) : (s.pushed v).tblptr = s.tblptr := by unfold State.pushed; dsimp only; split <;> simp_all
@[simp] theorem State.pushed_tablat (v : ProgAddr) : (s.pushed v).tablat = s.tablat := by unfold State.pushed; dsimp only; split <;> simp_all
@[simp] theorem State.pushed_pclath (v : ProgAddr) : (s.pushed v).pclath = s.pclath := by unfold State.pushed; dsimp only; split <;> simp_all
@[simp] theorem State.pushed_pclatu (v : ProgAddr) : (s.pushed v).pclatu = s.pclatu := by unfold State.pushed; dsimp only; split <;> simp_all
@[simp] theorem State.pushed_stack (v : ProgAddr) : (s.pushed v).stack = s.stack.setIfInBounds s.sp.toNat v := by unfold State.pushed; dsimp only; split <;> simp_all
@[simp] theorem State.pushed_sp (v : ProgAddr) : (s.pushed v).sp = s.sp + 1 := by unfold State.pushed; dsimp only; split <;> simp_all
@[simp] theorem State.pushed_stkful (v : ProgAddr) : (s.pushed v).stkful = (s.stkful || decide (s.sp + 1 = s.cfg.stackDepth)) := by unfold State.pushed; dsimp only; split <;> simp_all
@[simp] theorem State.pushed_stkunf (v : ProgAddr) : (s.pushed v).stkunf = s.stkunf := by unfold State.pushed; dsimp only; split <;> simp_all
@[simp] theorem State.pushed_shadow (v : ProgAddr) : (s.pushed v).shadow = s.shadow := by unfold State.pushed; dsimp only; split <;> simp_all
@[simp] theorem State.pushed_gieh (v : ProgAddr) : (s.pushed v).gieh = s.gieh := by unfold State.pushed; dsimp only; split <;> simp_all
@[simp] theorem State.pushed_giel (v : ProgAddr) : (s.pushed v).giel = s.giel := by unfold State.pushed; dsimp only; split <;> simp_all
@[simp] theorem State.pushed_rcon (v : ProgAddr) : (s.pushed v).rcon = s.rcon := by unfold State.pushed; dsimp only; split <;> simp_all
@[simp] theorem State.pushed_ram (v : ProgAddr) : (s.pushed v).ram = s.ram := by unfold State.pushed; dsimp only; split <;> simp_all
@[simp] theorem State.pushed_prog (v : ProgAddr) : (s.pushed v).prog = s.prog := by unfold State.pushed; dsimp only; split <;> simp_all
@[simp] theorem State.pushed_hold (v : ProgAddr) : (s.pushed v).hold = s.hold := by unfold State.pushed; dsimp only; split <;> simp_all
@[simp] theorem State.pushed_wdtCounter (v : ProgAddr) : (s.pushed v).wdtCounter = s.wdtCounter := by unfold State.pushed; dsimp only; split <;> simp_all
@[simp] theorem State.pushed_wdtPostscaler (v : ProgAddr) : (s.pushed v).wdtPostscaler = s.wdtPostscaler := by unfold State.pushed; dsimp only; split <;> simp_all
@[simp] theorem State.pushed_runState (v : ProgAddr) : (s.pushed v).runState = s.runState := by unfold State.pushed; dsimp only; split <;> simp_all
@[simp] theorem State.pushed_requests (v : ProgAddr) : (s.pushed v).requests = s.requests := by unfold State.pushed; dsimp only; split <;> simp_all
@[simp] theorem State.pushed_skipped (v : ProgAddr) : (s.pushed v).skipped = s.skipped := by unfold State.pushed; dsimp only; split <;> simp_all
@[simp] theorem State.pushed_cfg (v : ProgAddr) : (s.pushed v).cfg = s.cfg := by unfold State.pushed; dsimp only; split <;> simp_all
@[simp] theorem State.pushed_env (v : ProgAddr) : (s.pushed v).env = s.env := by unfold State.pushed; dsimp only; split <;> simp_all

/-! ### saveShadow -/

@[simp] theorem State.saveShadow_pc : (s.saveShadow).pc = s.pc := rfl
@[simp] theorem State.saveShadow_wreg : (s.saveShadow).wreg = s.wreg := rfl
@[simp] theorem State.saveShadow_flags : (s.saveShadow).flags = s.flags := rfl
@[simp] theorem State.saveShadow_bsr : (s.saveShadow).bsr = s.bsr := rfl
@[simp] theorem State.saveShadow_fsr0 : (s.saveShadow).fsr0 = s.fsr0 := rfl
@[simp] theorem State.saveShadow_fsr1 : (s.saveShadow).fsr1 = s.fsr1 := rfl
@[simp] theorem State.saveShadow_fsr2 : (s.saveShadow).fsr2 = s.fsr2 := rfl
@[simp] theorem State.saveShadow_prodh : (s.saveShadow).prodh = s.prodh := rfl
@[simp] theorem State.saveShadow_prodl : (s.saveShadow).prodl = s.prodl := rfl
@[simp] theorem State.saveShadow_tblptr : (s.saveShadow).tblptr = s.tblptr := rfl
@[simp] theorem State.saveShadow_tablat : (s.saveShadow).tablat = s.tablat := rfl
@[simp] theorem State.saveShadow_pclath : (s.saveShadow).pclath = s.pclath := rfl
@[simp] theorem State.saveShadow_pclatu : (s.saveShadow).pclatu = s.pclatu := rfl
@[simp] theorem State.saveShadow_stack : (s.saveShadow).stack = s.stack := rfl
@[simp] theorem State.saveShadow_sp : (s.saveShadow).sp = s.sp := rfl
@[simp] theorem State.saveShadow_stkful : (s.saveShadow).stkful = s.stkful := rfl
@[simp] theorem State.saveShadow_stkunf : (s.saveShadow).stkunf = s.stkunf := rfl
@[simp] theorem State.saveShadow_shadow : (s.saveShadow).shadow = ⟨s.wreg, s.flags, s.bsr⟩ := rfl
@[simp] theorem State.saveShadow_gieh : (s.saveShadow).gieh = s.gieh := rfl
@[simp] theorem State.saveShadow_giel : (s.saveShadow).giel = s.giel := rfl
@[simp] theorem State.saveShadow_rcon : (s.saveShadow).rcon = s.rcon := rfl
@[simp] theorem State.saveShadow_ram : (s.saveShadow).ram = s.ram := rfl
@[simp] theorem State.saveShadow_prog : (s.saveShadow).prog = s.prog := rfl
@[simp] theorem State.saveShadow_hold : (s.saveShadow).hold = s.hold := rfl
@[simp] theorem State.saveShadow_wdtCounter : (s.saveShadow).wdtCounter = s.wdtCounter := rfl
@[simp] theorem State.saveShadow_wdtPostscaler : (s.saveShadow).wdtPostscaler = s.wdtPostscaler := rfl
@[simp] theorem State.saveShadow_runState : (s.saveShadow).runState = s.runState := rfl
@[simp] theorem State.saveShadow_requests : (s.saveShadow).requests = s.requests := rfl
@[simp] theorem State.saveShadow_skipped : (s.saveShadow).skipped = s.skipped := rfl
@[simp] theorem State.saveShadow_cfg : (s.saveShadow).cfg = s.cfg := rfl
@[simp] theorem State.saveShadow_env : (s.saveShadow).env = s.env := rfl

/-! ### restoreShadow -/

@[simp] theorem State.restoreShadow_pc : (s.restoreShadow).pc = s.pc := rfl
@[simp] theorem State.restoreShadow_wreg : (s.restoreShadow).wreg = s.shadow.ws := rfl
@[simp] theorem State.restoreShadow_flags : (s.restoreShadow).flags = s.shadow.statuss := rfl
@[simp] theorem State.restoreShadow_bsr : (s.restoreShadow).bsr = s.shadow.bsrs := rfl
@[simp] theorem State.restoreShadow_fsr0 : (s.restoreShadow).fsr0 = s.fsr0 := rfl
@[simp] theorem State.restoreShadow_fsr1 : (s.restoreShadow).fsr1 = s.fsr1 := rfl
@[simp] theorem State.restoreShadow_fsr2 : (s.restoreShadow).fsr2 = s.fsr2 := rfl
@[simp] theorem State.restoreShadow_prodh : (s.restoreShadow).prodh = s.prodh := rfl
@[simp] theorem State.restoreShadow_prodl : (s.restoreShadow).prodl = s.prodl := rfl
@[simp] theorem State.restoreShadow_tblptr : (s.restoreShadow).tblptr = s.tblptr := rfl
@[simp] theorem State.restoreShadow_tablat : (s.restoreShadow).tablat = s.tablat := rfl
@[simp] theorem State.restoreShadow_pclath : (s.restoreShadow).pclath = s.pclath := rfl
@[simp] theorem State.restoreShadow_pclatu : (s.restoreShadow).pclatu = s.pclatu := rfl
@[simp] theorem State.restoreShadow_stack : (s.restoreShadow).stack = s.stack := rfl
@[simp] theorem State.restoreShadow_sp : (s.restoreShadow).sp = s.sp := rfl
@[simp] theorem State.restoreShadow_stkful : (s.restoreShadow).stkful = s.stkful := rfl
@[simp] theorem State.restoreShadow_stkunf : (s.restoreShadow).stkunf = s.stkunf := rfl
@[simp] theorem State.restoreShadow_shadow : (s.restoreShadow).shadow = s.shadow := rfl
@[simp] theorem State.restoreShadow_gieh : (s.restoreShadow).gieh = s.gieh := rfl
@[simp] theorem State.restoreShadow_giel : (s.restoreShadow).giel = s.giel := rfl
@[simp] theorem State.restoreShadow_rcon : (s.restoreShadow).rcon = s.rcon := rfl
@[simp] theorem State.restoreShadow_ram : (s.restoreShadow).ram = s.ram := rfl
@[simp] theorem State.restoreShadow_prog : (s.restoreShadow).prog = s.prog := rfl
@[simp] theorem State.restoreShadow_hold : (s.restoreShadow).hold = s.hold := rfl
@[simp] theorem State.restoreShadow_wdtCounter : (s.restoreShadow).wdtCounter = s.wdtCounter := rfl
@[simp] theorem State.restoreShadow_wdtPostscaler : (s.restoreShadow).wdtPostscaler = s.wdtPostscaler := rfl
@[simp] theorem State.restoreShadow_runState : (s.restoreShadow).runState = s.runState := rfl
@[simp] theorem State.restoreShadow_requests : (s.restoreShadow).requests = s.requests := rfl
@[simp] theorem State.restoreShadow_skipped : (s.restoreShadow).skipped = s.skipped := rfl
@[simp] theorem State.restoreShadow_cfg : (s.restoreShadow).cfg = s.cfg := rfl
@[simp] theorem State.restoreShadow_env : (s.restoreShadow).env = s.env := rfl

/-! ### saveShadowIf -/

@[simp] theorem State.saveShadowIf_pc (b : Bool) : (s.saveShadowIf b).pc = s.pc := by cases b <;> rfl
@[simp] theorem State.saveShadowIf_wreg (b : Bool) : (s.saveShadowIf b).wreg = s.wreg := by cases b <;> rfl
@[simp] theorem State.saveShadowIf_flags (b : Bool) : (s.saveShadowIf b).flags = s.flags := by cases b <;> rfl
@[simp] theorem State.saveShadowIf_bsr (b : Bool) : (s.saveShadowIf b).bsr = s.bsr := by cases b <;> rfl
@[simp] theorem State.saveShadowIf_fsr0 (b : Bool) : (s.saveShadowIf b).fsr0 = s.fsr0 := by cases b <;> rfl
@[simp] theorem State.saveShadowIf_fsr1 (b : Bool) : (s.saveShadowIf b).fsr1 = s.fsr1 := by cases b <;> rfl
@[simp] theorem State.saveShadowIf_fsr2 (b : Bool) : (s.saveShadowIf b).fsr2 = s.fsr2 := by cases b <;> rfl
@[simp] theorem State.saveShadowIf_prodh (b : Bool) : (s.saveShadowIf b).prodh = s.prodh := by cases b <;> rfl
@[simp] theorem State.saveShadowIf_prodl (b : Bool) : (s.saveShadowIf b).prodl = s.prodl := by cases b <;> rfl
@[simp] theorem State.saveShadowIf_tblptr (b : Bool) : (s.saveShadowIf b).tblptr = s.tblptr := by cases b <;> rfl
@[simp] theorem State.saveShadowIf_tablat (b : Bool) : (s.saveShadowIf b).tablat = s.tablat := by cases b <;> rfl
@[simp] theorem State.saveShadowIf_pclath (b : Bool) : (s.saveShadowIf b).pclath = s.pclath := by cases b <;> rfl
@[simp] theorem State.saveShadowIf_pclatu (b : Bool) : (s.saveShadowIf b).pclatu = s.pclatu := by cases b <;> rfl
@[simp] theorem State.saveShadowIf_stack (b : Bool) : (s.saveShadowIf b).stack = s.stack := by cases b <;> rfl
@[simp] theorem State.saveShadowIf_sp (b : Bool) : (s.saveShadowIf b).sp = s.sp := by cases b <;> rfl
@[simp] theorem State.saveShadowIf_stkful (b : Bool) : (s.saveShadowIf b).stkful = s.stkful := by cases b <;> rfl
@[simp] theorem State.saveShadowIf_stkunf (b : Bool) : (s.saveShadowIf b).stkunf = s.stkunf := by cases b <;> rfl
@[simp] theorem State.saveShadowIf_shadow (b : Bool) : (s.saveShadowIf b).shadow = if b then ⟨s.wreg, s.flags, s.bsr⟩ else s.shadow := by cases b <;> rfl
@[simp] theorem State.saveShadowIf_gieh (b : Bool) : (s.saveShadowIf b).gieh = s.gieh := by cases b <;> rfl
@[simp] theorem State.saveShadowIf_giel (b : Bool) : (s.saveShadowIf b).giel = s.giel := by cases b <;> rfl
@[simp] theorem State.saveShadowIf_rcon (b : Bool) : (s.saveShadowIf b).rcon = s.rcon := by cases b <;> rfl
@[simp] theorem State.saveShadowIf_ram (b : Bool) : (s.saveShadowIf b).ram = s.ram := by cases b <;> rfl
@[simp] theorem State.saveShadowIf_prog (b : Bool) : (s.saveShadowIf b).prog = s.prog := by cases b <;> rfl
@[simp] theorem State.saveShadowIf_hold (b : Bool) : (s.saveShadowIf b).hold = s.hold := by cases b <;> rfl
@[simp] theorem State.saveShadowIf_wdtCounter (b : Bool) : (s.saveShadowIf b).wdtCounter = s.wdtCounter := by cases b <;> rfl
@[simp] theorem State.saveShadowIf_wdtPostscaler (b : Bool) : (s.saveShadowIf b).wdtPostscaler = s.wdtPostscaler := by cases b <;> rfl
@[simp] theorem State.saveShadowIf_runState (b : Bool) : (s.saveShadowIf b).runState = s.runState := by cases b <;> rfl
@[simp] theorem State.saveShadowIf_requests (b : Bool) : (s.saveShadowIf b).requests = s.requests := by cases b <;> rfl
@[simp] theorem State.saveShadowIf_skipped (b : Bool) : (s.saveShadowIf b).skipped = s.skipped := by cases b <;> rfl
@[simp] theorem State.saveShadowIf_cfg (b : Bool) : (s.saveShadowIf b).cfg = s.cfg := by cases b <;> rfl
@[simp] theorem State.saveShadowIf_env (b : Bool) : (s.saveShadowIf b).env = s.env := by cases b <;> rfl

/-! ### restoreShadowIf -/

@[simp] theorem State.restoreShadowIf_pc (b : Bool) : (s.restoreShadowIf b).pc = s.pc := by cases b <;> rfl
@[simp] theorem State.restoreShadowIf_wreg (b : Bool) : (s.restoreShadowIf b).wreg = if b then s.shadow.ws else s.wreg := by cases b <;> rfl
@[simp] theorem State.restoreShadowIf_flags (b : Bool) : (s.restoreShadowIf b).flags = if b then s.shadow.statuss else s.flags := by cases b <;> rfl
@[simp] theorem State.restoreShadowIf_bsr (b : Bool) : (s.restoreShadowIf b).bsr = if b then s.shadow.bsrs else s.bsr := by cases b <;> rfl
@[simp] theorem State.restoreShadowIf_fsr0 (b : Bool) : (s.restoreShadowIf b).fsr0 = s.fsr0 := by cases b <;> rfl
@[simp] theorem State.restoreShadowIf_fsr1 (b : Bool) : (s.restoreShadowIf b).fsr1 = s.fsr1 := by cases b <;> rfl
@[simp] theorem State.restoreShadowIf_fsr2 (b : Bool) : (s.restoreShadowIf b).fsr2 = s.fsr2 := by cases b <;> rfl
@[simp] theorem State.restoreShadowIf_prodh (b : Bool) : (s.restoreShadowIf b).prodh = s.prodh := by cases b <;> rfl
@[simp] theorem State.restoreShadowIf_prodl (b : Bool) : (s.restoreShadowIf b).prodl = s.prodl := by cases b <;> rfl
@[simp] theorem State.restoreShadowIf_tblptr (b : Bool) : (s.restoreShadowIf b).tblptr = s.tblptr := by cases b <;> rfl
@[simp] theorem State.restoreShadowIf_tablat (b : Bool) : (s.restoreShadowIf b).tablat = s.tablat := by cases b <;> rfl
@[simp] theorem State.restoreShadowIf_pclath (b : Bool) : (s.restoreShadowIf b).pclath = s.pclath := by cases b <;> rfl
@[simp] theorem State.restoreShadowIf_pclatu (b : Bool) : (s.restoreShadowIf b).pclatu = s.pclatu := by cases b <;> rfl
@[simp] theorem State.restoreShadowIf_stack (b : Bool) : (s.restoreShadowIf b).stack = s.stack := by cases b <;> rfl
@[simp] theorem State.restoreShadowIf_sp (b : Bool) : (s.restoreShadowIf b).sp = s.sp := by cases b <;> rfl
@[simp] theorem State.restoreShadowIf_stkful (b : Bool) : (s.restoreShadowIf b).stkful = s.stkful := by cases b <;> rfl
@[simp] theorem State.restoreShadowIf_stkunf (b : Bool) : (s.restoreShadowIf b).stkunf = s.stkunf := by cases b <;> rfl
@[simp] theorem State.restoreShadowIf_shadow (b : Bool) : (s.restoreShadowIf b).shadow = s.shadow := by cases b <;> rfl
@[simp] theorem State.restoreShadowIf_gieh (b : Bool) : (s.restoreShadowIf b).gieh = s.gieh := by cases b <;> rfl
@[simp] theorem State.restoreShadowIf_giel (b : Bool) : (s.restoreShadowIf b).giel = s.giel := by cases b <;> rfl
@[simp] theorem State.restoreShadowIf_rcon (b : Bool) : (s.restoreShadowIf b).rcon = s.rcon := by cases b <;> rfl
@[simp] theorem State.restoreShadowIf_ram (b : Bool) : (s.restoreShadowIf b).ram = s.ram := by cases b <;> rfl
@[simp] theorem State.restoreShadowIf_prog (b : Bool) : (s.restoreShadowIf b).prog = s.prog := by cases b <;> rfl
@[simp] theorem State.restoreShadowIf_hold (b : Bool) : (s.restoreShadowIf b).hold = s.hold := by cases b <;> rfl
@[simp] theorem State.restoreShadowIf_wdtCounter (b : Bool) : (s.restoreShadowIf b).wdtCounter = s.wdtCounter := by cases b <;> rfl
@[simp] theorem State.restoreShadowIf_wdtPostscaler (b : Bool) : (s.restoreShadowIf b).wdtPostscaler = s.wdtPostscaler := by cases b <;> rfl
@[simp] theorem State.restoreShadowIf_runState (b : Bool) : (s.restoreShadowIf b).runState = s.runState := by cases b <;> rfl
@[simp] theorem State.restoreShadowIf_requests (b : Bool) : (s.restoreShadowIf b).requests = s.requests := by cases b <;> rfl
@[simp] theorem State.restoreShadowIf_skipped (b : Bool) : (s.restoreShadowIf b).skipped = s.skipped := by cases b <;> rfl
@[simp] theorem State.restoreShadowIf_cfg (b : Bool) : (s.restoreShadowIf b).cfg = s.cfg := by cases b <;> rfl
@[simp] theorem State.restoreShadowIf_env (b : Bool) : (s.restoreShadowIf b).env = s.env := by cases b <;> rfl

/-! ### reenable -/

@[simp] theorem State.reenable_pc : (s.reenable).pc = s.pc := by unfold State.reenable; cases s.rcon.ipen <;> cases h : s.gieh <;> simp_all
@[simp] theorem State.reenable_wreg : (s.reenable).wreg = s.wreg := by unfold State.reenable; cases s.rcon.ipen <;> cases h : s.gieh <;> simp_all
@[simp] theorem State.reenable_flags : (s.reenable).flags = s.flags := by unfold State.reenable; cases s.rcon.ipen <;> cases h : s.gieh <;> simp_all
@[simp] theorem State.reenable_bsr : (s.reenable).bsr = s.bsr := by unfold State.reenable; cases s.rcon.ipen <;> cases h : s.gieh <;> simp_all
@[simp] theorem State.reenable_fsr0 : (s.reenable).fsr0 = s.fsr0 := by unfold State.reenable; cases s.rcon.ipen <;> cases h : s.gieh <;> simp_all
@[simp] theorem State.reenable_fsr1 : (s.reenable).fsr1 = s.fsr1 := by unfold State.reenable; cases s.rcon.ipen <;> cases h : s.gieh <;> simp_all
@[simp] theorem State.reenable_fsr2 : (s.reenable).fsr2 = s.fsr2 := by unfold State.reenable; cases s.rcon.ipen <;> cases h : s.gieh <;> simp_all
@[simp] theorem State.reenable_prodh : (s.reenable).prodh = s.prodh := by unfold State.reenable; cases s.rcon.ipen <;> cases h : s.gieh <;> simp_all
@[simp] theorem State.reenable_prodl : (s.reenable).prodl = s.prodl := by unfold State.reenable; cases s.rcon.ipen <;> cases h : s.gieh <;> simp_all
@[simp] theorem State.reenable_tblptr : (s.reenable).tblptr = s.tblptr := by unfold State.reenable; cases s.rcon.ipen <;> cases h : s.gieh <;> simp_all
@[simp] theorem State.reenable_tablat : (s.reenable).tablat = s.tablat := by unfold State.reenable; cases s.rcon.ipen <;> cases h : s.gieh <;> simp_all
@[simp] theorem State.reenable_pclath : (s.reenable).pclath = s.pclath := by unfold State.reenable; cases s.rcon.ipen <;> cases h : s.gieh <;> simp_all
@[simp] theorem State.reenable_pclatu : (s.reenable).pclatu = s.pclatu := by unfold State.reenable; cases s.rcon.ipen <;> cases h : s.gieh <;> simp_all
@[simp] theorem State.reenable_stack : (s.reenable).stack = s.stack := by unfold State.reenable; cases s.rcon.ipen <;> cases h : s.gieh <;> simp_all
@[simp] theorem State.reenable_sp : (s.reenable).sp = s.sp := by unfold State.reenable; cases s.rcon.ipen <;> cases h : s.gieh <;> simp_all
@[simp] theorem State.reenable_stkful : (s.reenable).stkful = s.stkful := by unfold State.reenable; cases s.rcon.ipen <;> cases h : s.gieh <;> simp_all
@[simp] theorem State.reenable_stkunf : (s.reenable).stkunf = s.stkunf := by unfold State.reenable; cases s.rcon.ipen <;> cases h : s.gieh <;> simp_all
@[simp] theorem State.reenable_shadow : (s.reenable).shadow = s.shadow := by unfold State.reenable; cases s.rcon.ipen <;> cases h : s.gieh <;> simp_all
@[simp] theorem State.reenable_gieh : (s.reenable).gieh = (s.gieh || !(s.rcon.ipen && s.gieh)) := by unfold State.reenable; cases s.rcon.ipen <;> cases h : s.gieh <;> simp_all
@[simp] theorem State.reenable_giel : (s.reenable).giel = (s.giel || (s.rcon.ipen && s.gieh)) := by unfold State.reenable; cases s.rcon.ipen <;> cases h : s.gieh <;> simp_all
@[simp] theorem State.reenable_rcon : (s.reenable).rcon = s.rcon := by unfold State.reenable; cases s.rcon.ipen <;> cases h : s.gieh <;> simp_all
@[simp] theorem State.reenable_ram : (s.reenable).ram = s.ram := by unfold State.reenable; cases s.rcon.ipen <;> cases h : s.gieh <;> simp_all
@[simp] theorem State.reenable_prog : (s.reenable).prog = s.prog := by unfold State.reenable; cases s.rcon.ipen <;> cases h : s.gieh <;> simp_all
@[simp] theorem State.reenable_hold : (s.reenable).hold = s.hold := by unfold State.reenable; cases s.rcon.ipen <;> cases h : s.gieh <;> simp_all
@[simp] theorem State.reenable_wdtCounter : (s.reenable).wdtCounter = s.wdtCounter := by unfold State.reenable; cases s.rcon.ipen <;> cases h : s.gieh <;> simp_all
@[simp] theorem State.reenable_wdtPostscaler : (s.reenable).wdtPostscaler = s.wdtPostscaler := by unfold State.reenable; cases s.rcon.ipen <;> cases h : s.gieh <;> simp_all
@[simp] theorem State.reenable_runState : (s.reenable).runState = s.runState := by unfold State.reenable; cases s.rcon.ipen <;> cases h : s.gieh <;> simp_all
@[simp] theorem State.reenable_requests : (s.reenable).requests = s.requests := by unfold State.reenable; cases s.rcon.ipen <;> cases h : s.gieh <;> simp_all
@[simp] theorem State.reenable_skipped : (s.reenable).skipped = s.skipped := by unfold State.reenable; cases s.rcon.ipen <;> cases h : s.gieh <;> simp_all
@[simp] theorem State.reenable_cfg : (s.reenable).cfg = s.cfg := by unfold State.reenable; cases s.rcon.ipen <;> cases h : s.gieh <;> simp_all
@[simp] theorem State.reenable_env : (s.reenable).env = s.env := by unfold State.reenable; cases s.rcon.ipen <;> cases h : s.gieh <;> simp_all

/-! ### clearWdt -/

@[simp] theorem State.clearWdt_pc : (s.clearWdt).pc = s.pc := rfl
@[simp] theorem State.clearWdt_wreg : (s.clearWdt).wreg = s.wreg := rfl
@[simp] theorem State.clearWdt_flags : (s.clearWdt).flags = s.flags := rfl
@[simp] theorem State.clearWdt_bsr : (s.clearWdt).bsr = s.bsr := rfl
@[simp] theorem State.clearWdt_fsr0 : (s.clearWdt).fsr0 = s.fsr0 := rfl
@[simp] theorem State.clearWdt_fsr1 : (s.clearWdt).fsr1 = s.fsr1 := rfl
@[simp] theorem State.clearWdt_fsr2 : (s.clearWdt).fsr2 = s.fsr2 := rfl
@[simp] theorem State.clearWdt_prodh : (s.clearWdt).prodh = s.prodh := rfl
@[simp] theorem State.clearWdt_prodl : (s.clearWdt).prodl = s.prodl := rfl
@[simp] theorem State.clearWdt_tblptr : (s.clearWdt).tblptr = s.tblptr := rfl
@[simp] theorem State.clearWdt_tablat : (s.clearWdt).tablat = s.tablat := rfl
@[simp] theorem State.clearWdt_pclath : (s.clearWdt).pclath = s.pclath := rfl
@[simp] theorem State.clearWdt_pclatu : (s.clearWdt).pclatu = s.pclatu := rfl
@[simp] theorem State.clearWdt_stack : (s.clearWdt).stack = s.stack := rfl
@[simp] theorem State.clearWdt_sp : (s.clearWdt).sp = s.sp := rfl
@[simp] theorem State.clearWdt_stkful : (s.clearWdt).stkful = s.stkful := rfl
@[simp] theorem State.clearWdt_stkunf : (s.clearWdt).stkunf = s.stkunf := rfl
@[simp] theorem State.clearWdt_shadow : (s.clearWdt).shadow = s.shadow := rfl
@[simp] theorem State.clearWdt_gieh : (s.clearWdt).gieh = s.gieh := rfl
@[simp] theorem State.clearWdt_giel : (s.clearWdt).giel = s.giel := rfl
@[simp] theorem State.clearWdt_rcon : (s.clearWdt).rcon = s.rcon := rfl
@[simp] theorem State.clearWdt_ram : (s.clearWdt).ram = s.ram := rfl
@[simp] theorem State.clearWdt_prog : (s.clearWdt).prog = s.prog := rfl
@[simp] theorem State.clearWdt_hold : (s.clearWdt).hold = s.hold := rfl
@[simp] theorem State.clearWdt_wdtCounter : (s.clearWdt).wdtCounter = 0 := rfl
@[simp] theorem State.clearWdt_wdtPostscaler : (s.clearWdt).wdtPostscaler = 0 := rfl
@[simp] theorem State.clearWdt_runState : (s.clearWdt).runState = s.runState := rfl
@[simp] theorem State.clearWdt_requests : (s.clearWdt).requests = s.requests := rfl
@[simp] theorem State.clearWdt_skipped : (s.clearWdt).skipped = s.skipped := rfl
@[simp] theorem State.clearWdt_cfg : (s.clearWdt).cfg = s.cfg := rfl
@[simp] theorem State.clearWdt_env : (s.clearWdt).env = s.env := rfl

/-! ### setToPd -/

@[simp] theorem State.setToPd_pc (x y : Bool) : (s.setToPd x y).pc = s.pc := rfl
@[simp] theorem State.setToPd_wreg (x y : Bool) : (s.setToPd x y).wreg = s.wreg := rfl
@[simp] theorem State.setToPd_flags (x y : Bool) : (s.setToPd x y).flags = s.flags := rfl
@[simp] theorem State.setToPd_bsr (x y : Bool) : (s.setToPd x y).bsr = s.bsr := rfl
@[simp] theorem State.setToPd_fsr0 (x y : Bool) : (s.setToPd x y).fsr0 = s.fsr0 := rfl
@[simp] theorem State.setToPd_fsr1 (x y : Bool) : (s.setToPd x y).fsr1 = s.fsr1 := rfl
@[simp] theorem State.setToPd_fsr2 (x y : Bool) : (s.setToPd x y).fsr2 = s.fsr2 := rfl
@[simp] theorem State.setToPd_prodh (x y : Bool) : (s.setToPd x y).prodh = s.prodh := rfl
@[simp] theorem State.setToPd_prodl (x y : Bool) : (s.setToPd x y).prodl = s.prodl := rfl
@[simp] theorem State.setToPd_tblptr (x y : Bool) : (s.setToPd x y).tblptr = s.tblptr := rfl
@[simp] theorem State.setToPd_tablat (x y : Bool) : (s.setToPd x y).tablat = s.tablat := rfl
@[simp] theorem State.setToPd_pclath (x y : Bool) : (s.setToPd x y).pclath = s.pclath := rfl
@[simp] theorem State.setToPd_pclatu (x y : Bool) : (s.setToPd x y).pclatu = s.pclatu := rfl
@[simp] theorem State.setToPd_stack (x y : Bool) : (s.setToPd x y).stack = s.stack := rfl
@[simp] theorem State.setToPd_sp (x y : Bool) : (s.setToPd x y).sp = s.sp := rfl
@[simp] theorem State.setToPd_stkful (x y : Bool) : (s.setToPd x y).stkful = s.stkful := rfl
@[simp] theorem State.setToPd_stkunf (x y : Bool) : (s.setToPd x y).stkunf = s.stkunf := rfl
@[simp] theorem State.setToPd_shadow (x y : Bool) : (s.setToPd x y).shadow = s.shadow := rfl
@[simp] theorem State.setToPd_gieh (x y : Bool) : (s.setToPd x y).gieh = s.gieh := rfl
@[simp] theorem State.setToPd_giel (x y : Bool) : (s.setToPd x y).giel = s.giel := rfl
@[simp] theorem State.setToPd_rcon (x y : Bool) : (s.setToPd x y).rcon = { s.rcon with timeOut := x, powerDown := y } := rfl
@[simp] theorem State.setToPd_ram (x y : Bool) : (s.setToPd x y).ram = s.ram := rfl
@[simp] theorem State.setToPd_prog (x y : Bool) : (s.setToPd x y).prog = s.prog := rfl
@[simp] theorem State.setToPd_hold (x y : Bool) : (s.setToPd x y).hold = s.hold := rfl
@[simp] theorem State.setToPd_wdtCounter (x y : Bool) : (s.setToPd x y).wdtCounter = s.wdtCounter := rfl
@[simp] theorem State.setToPd_wdtPostscaler (x y : Bool) : (s.setToPd x y).wdtPostscaler = s.wdtPostscaler := rfl
@[simp] theorem State.setToPd_runState (x y : Bool) : (s.setToPd x y).runState = s.runState := rfl
@[simp] theorem State.setToPd_requests (x y : Bool) : (s.setToPd x y).requests = s.requests := rfl
@[simp] theorem State.setToPd_skipped (x y : Bool) : (s.setToPd x y).skipped = s.skipped := rfl
@[simp] theorem State.setToPd_cfg (x y : Bool) : (s.setToPd x y).cfg = s.cfg := rfl
@[simp] theorem State.setToPd_env (x y : Bool) : (s.setToPd x y).env = s.env := rfl

/-! ### tickWdt -/

@[simp] theorem State.tickWdt_pc : (s.tickWdt).pc = s.pc := by unfold State.tickWdt; split <;> rfl
@[simp] theorem State.tickWdt_wreg : (s.tickWdt).wreg = s.wreg := by unfold State.tickWdt; split <;> rfl
@[simp] theorem State.tickWdt_flags : (s.tickWdt).flags = s.flags := by unfold State.tickWdt; split <;> rfl
@[simp] theorem State.tickWdt_bsr : (s.tickWdt).bsr = s.bsr := by unfold State.tickWdt; split <;> rfl
@[simp] theorem State.tickWdt_fsr0 : (s.tickWdt).fsr0 = s.fsr0 := by unfold State.tickWdt; split <;> rfl
@[simp] theorem State.tickWdt_fsr1 : (s.tickWdt).fsr1 = s.fsr1 := by unfold State.tickWdt; split <;> rfl
@[simp] theorem State.tickWdt_fsr2 : (s.tickWdt).fsr2 = s.fsr2 := by unfold State.tickWdt; split <;> rfl
@[simp] theorem State.tickWdt_prodh : (s.tickWdt).prodh = s.prodh := by unfold State.tickWdt; split <;> rfl
@[simp] theorem State.tickWdt_prodl : (s.tickWdt).prodl = s.prodl := by unfold State.tickWdt; split <;> rfl
@[simp] theorem State.tickWdt_tblptr : (s.tickWdt).tblptr = s.tblptr := by unfold State.tickWdt; split <;> rfl
@[simp] theorem State.tickWdt_tablat : (s.tickWdt).tablat = s.tablat := by unfold State.tickWdt; split <;> rfl
@[simp] theorem State.tickWdt_pclath : (s.tickWdt).pclath = s.pclath := by unfold State.tickWdt; split <;> rfl
@[simp] theorem State.tickWdt_pclatu : (s.tickWdt).pclatu = s.pclatu := by unfold State.tickWdt; split <;> rfl
@[simp] theorem State.tickWdt_stack : (s.tickWdt).stack = s.stack := by unfold State.tickWdt; split <;> rfl
@[simp] theorem State.tickWdt_sp : (s.tickWdt).sp = s.sp := by unfold State.tickWdt; split <;> rfl
@[simp] theorem State.tickWdt_stkful : (s.tickWdt).stkful = s.stkful := by unfold State.tickWdt; split <;> rfl
@[simp] theorem State.tickWdt_stkunf : (s.tickWdt).stkunf = s.stkunf := by unfold State.tickWdt; split <;> rfl
@[simp] theorem State.tickWdt_shadow : (s.tickWdt).shadow = s.shadow := by unfold State.tickWdt; split <;> rfl
@[simp] theorem State.tickWdt_gieh : (s.tickWdt).gieh = s.gieh := by unfold State.tickWdt; split <;> rfl
@[simp] theorem State.tickWdt_giel : (s.tickWdt).giel = s.giel := by unfold State.tickWdt; split <;> rfl
@[simp] theorem State.tickWdt_rcon : (s.tickWdt).rcon = s.rcon := by unfold State.tickWdt; split <;> rfl
@[simp] theorem State.tickWdt_ram : (s.tickWdt).ram = s.ram := by unfold State.tickWdt; split <;> rfl
@[simp] theorem State.tickWdt_prog : (s.tickWdt).prog = s.prog := by unfold State.tickWdt; split <;> rfl
@[simp] theorem State.tickWdt_hold : (s.tickWdt).hold = s.hold := by unfold State.tickWdt; split <;> rfl
@[simp] theorem State.tickWdt_wdtCounter : (s.tickWdt).wdtCounter = if s.cfg.wdten then s.wdtCounter + 1 else s.wdtCounter := by unfold State.tickWdt; split <;> rfl
@[simp] theorem State.tickWdt_wdtPostscaler : (s.tickWdt).wdtPostscaler = s.wdtPostscaler := by unfold State.tickWdt; split <;> rfl
@[simp] theorem State.tickWdt_runState : (s.tickWdt).runState = s.runState := by unfold State.tickWdt; split <;> rfl
@[simp] theorem State.tickWdt_requests : (s.tickWdt).requests = s.requests := by unfold State.tickWdt; split <;> rfl
@[simp] theorem State.tickWdt_skipped : (s.tickWdt).skipped = s.skipped := by unfold State.tickWdt; split <;> rfl
@[simp] theorem State.tickWdt_cfg : (s.tickWdt).cfg = s.cfg := by unfold State.tickWdt; split <;> rfl
@[simp] theorem State.tickWdt_env : (s.tickWdt).env = s.env := by unfold State.tickWdt; split <;> rfl

/-! ### arrive -/

@[simp] theorem State.arrive_pc : (s.arrive).pc = s.pc := rfl
@[simp] theorem State.arrive_wreg : (s.arrive).wreg = s.wreg := rfl
@[simp] theorem State.arrive_flags : (s.arrive).flags = s.flags := rfl
@[simp] theorem State.arrive_bsr : (s.arrive).bsr = s.bsr := rfl
@[simp] theorem State.arrive_fsr0 : (s.arrive).fsr0 = s.fsr0 := rfl
@[simp] theorem State.arrive_fsr1 : (s.arrive).fsr1 = s.fsr1 := rfl
@[simp] theorem State.arrive_fsr2 : (s.arrive).fsr2 = s.fsr2 := rfl
@[simp] theorem State.arrive_prodh : (s.arrive).prodh = s.prodh := rfl
@[simp] theorem State.arrive_prodl : (s.arrive).prodl = s.prodl := rfl
@[simp] theorem State.arrive_tblptr : (s.arrive).tblptr = s.tblptr := rfl
@[simp] theorem State.arrive_tablat : (s.arrive).tablat = s.tablat := rfl
@[simp] theorem State.arrive_pclath : (s.arrive).pclath = s.pclath := rfl
@[simp] theorem State.arrive_pclatu : (s.arrive).pclatu = s.pclatu := rfl
@[simp] theorem State.arrive_stack : (s.arrive).stack = s.stack := rfl
@[simp] theorem State.arrive_sp : (s.arrive).sp = s.sp := rfl
@[simp] theorem State.arrive_stkful : (s.arrive).stkful = s.stkful := rfl
@[simp] theorem State.arrive_stkunf : (s.arrive).stkunf = s.stkunf := rfl
@[simp] theorem State.arrive_shadow : (s.arrive).shadow = s.shadow := rfl
@[simp] theorem State.arrive_gieh : (s.arrive).gieh = s.gieh := rfl
@[simp] theorem State.arrive_giel : (s.arrive).giel = s.giel := rfl
@[simp] theorem State.arrive_rcon : (s.arrive).rcon = s.rcon := rfl
@[simp] theorem State.arrive_ram : (s.arrive).ram = s.ram := rfl
@[simp] theorem State.arrive_prog : (s.arrive).prog = s.prog := rfl
@[simp] theorem State.arrive_hold : (s.arrive).hold = s.hold := rfl
@[simp] theorem State.arrive_wdtCounter : (s.arrive).wdtCounter = s.wdtCounter := rfl
@[simp] theorem State.arrive_wdtPostscaler : (s.arrive).wdtPostscaler = s.wdtPostscaler := rfl
@[simp] theorem State.arrive_runState : (s.arrive).runState = s.runState := rfl
@[simp] theorem State.arrive_requests : (s.arrive).requests = s.requests.after s.movesNow := rfl
@[simp] theorem State.arrive_skipped : (s.arrive).skipped = s.skipped := rfl
@[simp] theorem State.arrive_cfg : (s.arrive).cfg = s.cfg := rfl
@[simp] theorem State.arrive_env : (s.arrive).env = s.env.tail := rfl

/-! ### clearedByReset -/

@[simp] theorem clearedByReset_pc : (clearedByReset s).pc = 0 := rfl
@[simp] theorem clearedByReset_wreg : (clearedByReset s).wreg = s.wreg := rfl
@[simp] theorem clearedByReset_flags : (clearedByReset s).flags = s.flags := rfl
@[simp] theorem clearedByReset_bsr : (clearedByReset s).bsr = 0 := rfl
@[simp] theorem clearedByReset_fsr0 : (clearedByReset s).fsr0 = s.fsr0 &&& 0x0FF := rfl
@[simp] theorem clearedByReset_fsr1 : (clearedByReset s).fsr1 = s.fsr1 &&& 0x0FF := rfl
@[simp] theorem clearedByReset_fsr2 : (clearedByReset s).fsr2 = s.fsr2 &&& 0x0FF := rfl
@[simp] theorem clearedByReset_prodh : (clearedByReset s).prodh = s.prodh := rfl
@[simp] theorem clearedByReset_prodl : (clearedByReset s).prodl = s.prodl := rfl
@[simp] theorem clearedByReset_tblptr : (clearedByReset s).tblptr = 0 := rfl
@[simp] theorem clearedByReset_tablat : (clearedByReset s).tablat = 0 := rfl
@[simp] theorem clearedByReset_pclath : (clearedByReset s).pclath = 0 := rfl
@[simp] theorem clearedByReset_pclatu : (clearedByReset s).pclatu = 0 := rfl
@[simp] theorem clearedByReset_stack : (clearedByReset s).stack = s.stack := rfl
@[simp] theorem clearedByReset_sp : (clearedByReset s).sp = 0 := rfl
@[simp] theorem clearedByReset_stkful : (clearedByReset s).stkful = s.stkful := rfl
@[simp] theorem clearedByReset_stkunf : (clearedByReset s).stkunf = s.stkunf := rfl
@[simp] theorem clearedByReset_shadow : (clearedByReset s).shadow = s.shadow := rfl
@[simp] theorem clearedByReset_gieh : (clearedByReset s).gieh = false := rfl
@[simp] theorem clearedByReset_giel : (clearedByReset s).giel = false := rfl
@[simp] theorem clearedByReset_rcon : (clearedByReset s).rcon = { s.rcon with ipen := false } := rfl
@[simp] theorem clearedByReset_ram : (clearedByReset s).ram = s.ram := rfl
@[simp] theorem clearedByReset_prog : (clearedByReset s).prog = s.prog := rfl
@[simp] theorem clearedByReset_hold : (clearedByReset s).hold = [] := rfl
@[simp] theorem clearedByReset_wdtCounter : (clearedByReset s).wdtCounter = 0 := rfl
@[simp] theorem clearedByReset_wdtPostscaler : (clearedByReset s).wdtPostscaler = 0 := rfl
@[simp] theorem clearedByReset_runState : (clearedByReset s).runState = .running := rfl
@[simp] theorem clearedByReset_requests : (clearedByReset s).requests = {} := rfl
@[simp] theorem clearedByReset_skipped : (clearedByReset s).skipped = false := rfl
@[simp] theorem clearedByReset_cfg : (clearedByReset s).cfg = s.cfg := rfl
@[simp] theorem clearedByReset_env : (clearedByReset s).env = s.env := rfl

/-! ### FSRs by number -/

@[simp] theorem State.fsr_f0 : s.fsr .f0 = s.fsr0 := rfl
@[simp] theorem State.fsr_f1 : s.fsr .f1 = s.fsr1 := rfl
@[simp] theorem State.fsr_f2 : s.fsr .f2 = s.fsr2 := rfl
@[simp] theorem State.fsr_setFsr (n m : FsrNum) (v : DataAddr) : (s.setFsr n v).fsr m = if n = m then v else s.fsr m := by cases n <;> cases m <;> rfl
@[simp] theorem State.fsr_setPc (a : ProgAddr) (n : FsrNum) : (s.setPc a).fsr n = s.fsr n := by cases n <;> rfl
@[simp] theorem State.tos_setPc (a : ProgAddr) : (s.setPc a).tos = s.tos := rfl
@[simp] theorem State.setPc_setPc (a b : ProgAddr) : (s.setPc a).setPc b = s.setPc b := rfl

end Sys2Proof.Machine
end

