-- ==== Sys2Proof/Laws/Operands.lean ====
section
/-! SUPPORT. Everything the operand operations can do: resolving an address, reading a location, writing one. Each lemma
says once what an operation gives when it answers; callers cite it and never unfold the operation. -/

namespace Sys2Proof.Machine

/-! ### Addresses -/

theorem isVirtual_iff {a : DataAddr} : isVirtual a = true ↔ ∃ k n, coreEntry a = some (.virtual k n) := by
  unfold isVirtual
  split
  · rename_i k n h
    exact ⟨fun _ => ⟨k, n, h⟩, fun _ => rfl⟩
  · rename_i h
    exact ⟨fun h' => by simp at h', fun ⟨k, n, h'⟩ => absurd h' (h k n)⟩

theorem isVirtual_false_iff {a : DataAddr} : isVirtual a = false ↔ ∀ k n, coreEntry a ≠ some (.virtual k n) := by
  rw [← Bool.not_eq_true, isVirtual_iff]
  simp

/-- Resolution looks at nothing of the state but its configuration. -/
theorem resolveDirect_congr {s t : State} (h : s.cfg = t.cfg) (a : DataAddr) :
    resolveDirect s a = resolveDirect t a := by
  simp [resolveDirect, h]

theorem indexedMode_congr {s t : State} (h : s.cfg = t.cfg) (f : Byte) (a : Access) :
    indexedMode s f a = indexedMode t f a := by
  simp [indexedMode, h]

theorem resolveIndexed_congr {s t : State} (h : s.cfg = t.cfg) (h2 : s.fsr2 = t.fsr2) (z : BitVec 7) :
    resolveIndexed s z = resolveIndexed t z := by
  simp only [resolveIndexed, h2, resolveDirect_congr h]

@[simp] theorem resolveDirect_setPc (s : State) (p : ProgAddr) (a : DataAddr) :
    resolveDirect (s.setPc p) a = resolveDirect s a := rfl

@[simp] theorem dataAddr_setPc (s : State) (p : ProgAddr) (f : Byte) (a : Access) :
    dataAddr (s.setPc p) f a = dataAddr s f a := by
  cases a <;> rfl

/-- A direct address answers with its core register, its RAM byte, or (outside the admitted model, below the special
function registers) `Null`. -/
theorem resolveDirect_ok {s : State} {a : DataAddr} {l : Loc} (h : resolveDirect s a = .ok l) :
    (∃ r, coreEntry a = some (.core r) ∧ l = .reg r) ∨
    ((∀ r, coreEntry a ≠ some (.core r)) ∧ a.toNat < s.cfg.ramBytes ∧ l = .ram a) ∨
    ((∀ r, coreEntry a ≠ some (.core r)) ∧ s.cfg.ramBytes ≤ a.toNat ∧ s.cfg.admitted = false ∧ a < s.cfg.sfrBase ∧
      l = .null) := by
  unfold resolveDirect at h
  split at h
  · rename_i r hr
    cases h
    exact .inl ⟨r, hr, rfl⟩
  · rename_i hr
    split at h
    · rename_i hlt
      cases h
      exact .inr (.inl ⟨hr, hlt, rfl⟩)
    · split at h
      · cases h
      · rename_i h1 h2
        cases h
        simp only [Bool.or_eq_true, decide_eq_true_eq, not_or, Bool.not_eq_true, BitVec.not_le] at h2
        exact .inr (.inr ⟨hr, not_lt.mp h1, h2.1, h2.2, rfl⟩)

/-- A direct address answers unless it is out of the model's reach (R87). -/
theorem resolveDirect_isOk (s : State) (a : DataAddr) (hv : isVirtual a = false) :
    (∃ l, resolveDirect s a = .ok l) ↔ addrInScope s.cfg a = true := by
  unfold resolveDirect addrInScope
  rw [isVirtual_false_iff] at hv
  cases hc : coreEntry a with
  | none =>
    have h4 : decide (a < s.cfg.sfrBase) = !decide (s.cfg.sfrBase ≤ a) := by
      rw [← decide_not, decide_eq_decide, BitVec.not_le]
    rw [h4]
    by_cases h1 : a.toNat < s.cfg.ramBytes <;> by_cases h3 : s.cfg.sfrBase ≤ a <;> cases s.cfg.admitted <;>
      simp [h1, h3]
  | some e =>
    cases e with
    | core r => simp
    | virtual k n => exact absurd hc (hv k n)

/-- What `Resolve` answers (R81 to R83): through a virtual register its FSR has moved and the location is where it
points, `Null` if that is a virtual register; for any other address the state is as it was. -/
theorem resolve_ok {s : State} {a : DataAddr} {r : Resolved} (h : resolve s a = .ok r) :
    (∃ k n, coreEntry a = some (.virtual k n) ∧ r.st = s.setFsr n (indirectTarget s k n).2 ∧
      ((isVirtual (indirectTarget s k n).1 = true ∧ r.loc = .null) ∨
        (isVirtual (indirectTarget s k n).1 = false ∧ resolveDirect s (indirectTarget s k n).1 = .ok r.loc))) ∨
    (isVirtual a = false ∧ r.st = s ∧ resolveDirect s a = .ok r.loc) := by
  unfold resolve at h
  split at h
  · rename_i k n hk
    refine .inl ⟨k, n, hk, ?_⟩
    dsimp only at h
    split at h
    · rename_i hv
      cases h
      exact ⟨rfl, .inl ⟨hv, rfl⟩⟩
    · rename_i hv
      rw [resolveDirect_congr (State.setFsr_cfg s n (indirectTarget s k n).2)] at h
      split at h
      · cases h
      · rename_i l hl
        cases h
        exact ⟨rfl, .inr ⟨by simpa using hv, hl⟩⟩
  · rename_i hv
    refine .inr ⟨isVirtual_false_iff.mpr hv, ?_⟩
    split at h
    · cases h
    · rename_i l hl
      cases h
      exact ⟨rfl, hl⟩

/-- `Resolve` answers exactly for the addresses whose target is in scope. -/
theorem resolve_isOk (s : State) (a : DataAddr) :
    (∃ r, resolve s a = .ok r) ↔ addrInScope s.cfg (targetAddr s a) = true := by
  cases hv : isVirtual a with
  | true =>
    obtain ⟨k, n, hk⟩ := isVirtual_iff.mp hv
    have ht : targetAddr s a = (indirectTarget s k n).1 := by simp [targetAddr, hk]
    cases hw : isVirtual (indirectTarget s k n).1 with
    | true =>
      obtain ⟨k', n', hk'⟩ := isVirtual_iff.mp hw
      simp [resolve, hk, hw, ht, addrInScope, hk']
    | false =>
      rw [ht, ← resolveDirect_isOk s _ hw]
      simp only [resolve, hk, hw]
      rw [resolveDirect_congr (State.setFsr_cfg s n (indirectTarget s k n).2)]
      cases resolveDirect s (indirectTarget s k n).1 <;> simp
  | false =>
    have ht : targetAddr s a = a := by
      unfold targetAddr
      split
      · rename_i k n hk
        exact absurd hk (isVirtual_false_iff.mp hv k n)
      · rfl
    rw [ht, ← resolveDirect_isOk s a hv]
    unfold resolve
    split
    · rename_i k n hk
      exact absurd hk (isVirtual_false_iff.mp hv k n)
    · cases resolveDirect s a <;> simp

/-- The operand of a byte- or bit-oriented instruction is its effective address resolved. -/
theorem resolveOperand_ok {s : State} {f : Byte} {a : Access} {r : Resolved} (h : resolveOperand s f a = .ok r) :
    resolve s (dataAddr s f a) = .ok r ∧ (indexedMode s f a && isVirtual (dataAddr s f a)) = false := by
  unfold resolveOperand at h
  split at h
  · cases h
  · rename_i h'
    exact ⟨h, by simpa using h'⟩

theorem resolveIndexed_ok {s : State} {z : BitVec 7} {l : Loc} (h : resolveIndexed s z = .ok l) :
    (isVirtual (s.fsr2 + z.setWidth 12) = true ∧ l = .null) ∨
      (isVirtual (s.fsr2 + z.setWidth 12) = false ∧ resolveDirect s (s.fsr2 + z.setWidth 12) = .ok l) := by
  unfold resolveIndexed at h
  dsimp only at h
  split at h
  · rename_i hv
    cases h
    exact .inl ⟨hv, rfl⟩
  · rename_i hv
    exact .inr ⟨by simpa using hv, h⟩

/-! ### States that differ in pointers and latches only -/

/-- `t` is `s` but for FSRs and the latches of pc: all that resolving and reading an operand can change (R82, R84). -/
def MovesOnly (s t : State) : Prop :=
  t = { s with fsr0 := t.fsr0, fsr1 := t.fsr1, fsr2 := t.fsr2, pclath := t.pclath, pclatu := t.pclatu }

variable {s t u : State}

theorem MovesOnly.refl (s : State) : MovesOnly s s := rfl

theorem MovesOnly.trans (h : MovesOnly s t) (k : MovesOnly t u) : MovesOnly s u := by
  unfold MovesOnly at *
  rw [k, h]

theorem MovesOnly.pc (h : MovesOnly s t) : t.pc = s.pc := (congrArg State.pc h :)
theorem MovesOnly.wreg (h : MovesOnly s t) : t.wreg = s.wreg := (congrArg State.wreg h :)
theorem MovesOnly.flags (h : MovesOnly s t) : t.flags = s.flags := (congrArg State.flags h :)
theorem MovesOnly.bsr (h : MovesOnly s t) : t.bsr = s.bsr := (congrArg State.bsr h :)
theorem MovesOnly.prodh (h : MovesOnly s t) : t.prodh = s.prodh := (congrArg State.prodh h :)
theorem MovesOnly.prodl (h : MovesOnly s t) : t.prodl = s.prodl := (congrArg State.prodl h :)
theorem MovesOnly.tblptr (h : MovesOnly s t) : t.tblptr = s.tblptr := (congrArg State.tblptr h :)
theorem MovesOnly.tablat (h : MovesOnly s t) : t.tablat = s.tablat := (congrArg State.tablat h :)
theorem MovesOnly.stack (h : MovesOnly s t) : t.stack = s.stack := (congrArg State.stack h :)
theorem MovesOnly.sp (h : MovesOnly s t) : t.sp = s.sp := (congrArg State.sp h :)
theorem MovesOnly.stkful (h : MovesOnly s t) : t.stkful = s.stkful := (congrArg State.stkful h :)
theorem MovesOnly.stkunf (h : MovesOnly s t) : t.stkunf = s.stkunf := (congrArg State.stkunf h :)
theorem MovesOnly.shadow (h : MovesOnly s t) : t.shadow = s.shadow := (congrArg State.shadow h :)
theorem MovesOnly.gieh (h : MovesOnly s t) : t.gieh = s.gieh := (congrArg State.gieh h :)
theorem MovesOnly.giel (h : MovesOnly s t) : t.giel = s.giel := (congrArg State.giel h :)
theorem MovesOnly.rcon (h : MovesOnly s t) : t.rcon = s.rcon := (congrArg State.rcon h :)
theorem MovesOnly.ram (h : MovesOnly s t) : t.ram = s.ram := (congrArg State.ram h :)
theorem MovesOnly.prog (h : MovesOnly s t) : t.prog = s.prog := (congrArg State.prog h :)
theorem MovesOnly.hold (h : MovesOnly s t) : t.hold = s.hold := (congrArg State.hold h :)
theorem MovesOnly.wdtCounter (h : MovesOnly s t) : t.wdtCounter = s.wdtCounter := (congrArg State.wdtCounter h :)
theorem MovesOnly.wdtPostscaler (h : MovesOnly s t) : t.wdtPostscaler = s.wdtPostscaler := (congrArg State.wdtPostscaler h :)
theorem MovesOnly.runState (h : MovesOnly s t) : t.runState = s.runState := (congrArg State.runState h :)
theorem MovesOnly.requests (h : MovesOnly s t) : t.requests = s.requests := (congrArg State.requests h :)
theorem MovesOnly.skipped (h : MovesOnly s t) : t.skipped = s.skipped := (congrArg State.skipped h :)
theorem MovesOnly.cfg (h : MovesOnly s t) : t.cfg = s.cfg := (congrArg State.cfg h :)
theorem MovesOnly.env (h : MovesOnly s t) : t.env = s.env := (congrArg State.env h :)

theorem movesOnly_setFsr (s : State) (n : FsrNum) (v : DataAddr) : MovesOnly s (s.setFsr n v) := by
  cases n <;> rfl

theorem resolve_moves {s : State} {a : DataAddr} {r : Resolved} (h : resolve s a = .ok r) : MovesOnly s r.st := by
  rcases resolve_ok h with ⟨k, n, -, hs, -⟩ | ⟨-, hs, -⟩
  · rw [hs]; exact movesOnly_setFsr ..
  · rw [hs]; exact MovesOnly.refl s

/-- Resolving an address leaves an FSR alone unless the address moves it. -/
theorem resolve_fsr {s : State} {a : DataAddr} {r : Resolved} {m : FsrNum} (h : resolve s a = .ok r)
    (hm : movesFsr m a = false) : r.st.fsr m = s.fsr m := by
  rcases resolve_ok h with ⟨k, n, hk, hs, -⟩ | ⟨-, hs, -⟩
  · rw [hs, State.fsr_setFsr]
    split
    · rename_i hn
      subst hn
      cases k <;> simp [indirectTarget, movesFsr, hk] at hm ⊢
    · rfl
  · rw [hs]

theorem resolve_latches {s : State} {a : DataAddr} {r : Resolved} (h : resolve s a = .ok r) :
    r.st.pclath = s.pclath ∧ r.st.pclatu = s.pclatu := by
  rcases resolve_ok h with ⟨k, n, -, hs, -⟩ | ⟨-, hs, -⟩ <;> rw [hs] <;> simp

/-! ### Reading a location -/

/-- Reading a location changes nothing, but for PCL, whose read puts pc's upper bytes in the latches (R84). -/
theorem locRead_ok {ws : Words} {s u : State} {l : Loc} {v : Byte} (h : locRead ws s l = .ok (v, u)) :
    (l ≠ .reg .pcl ∧ u = s) ∨
      (l = .reg .pcl ∧ ∃ p : ProgAddr, v = p.extractLsb' 0 8 ∧
        u = { s with pclath := p.extractLsb' 8 8, pclatu := p.extractLsb' 16 5 }) := by
  cases l with
  | ram a =>
    simp only [locRead] at h
    split at h
    · cases h
    · cases h
      exact .inl ⟨by simp, rfl⟩
  | null =>
    cases h
    exact .inl ⟨by simp, rfl⟩
  | reg r =>
    cases r
    case pcl =>
      refine .inr ⟨rfl, ?_⟩
      cases ws with
      | one =>
        cases h
        exact ⟨s.pc, rfl, rfl⟩
      | two =>
        simp only [locRead, pclRead] at h
        split at h
        · cases h
        · cases h
          exact ⟨_, rfl, rfl⟩
    all_goals
      cases h
      exact .inl ⟨by simp, rfl⟩

theorem locRead_moves {ws : Words} {s u : State} {l : Loc} {v : Byte} (h : locRead ws s l = .ok (v, u)) :
    MovesOnly s u := by
  rcases locRead_ok h with ⟨-, rfl⟩ | ⟨-, p, -, rfl⟩
  · exact MovesOnly.refl _
  · rfl

theorem locRead_fsr {ws : Words} {s u : State} {l : Loc} {v : Byte} (h : locRead ws s l = .ok (v, u)) (n : FsrNum) :
    u.fsr n = s.fsr n := by
  rcases locRead_ok h with ⟨-, rfl⟩ | ⟨-, p, -, rfl⟩
  · rfl
  · cases n <;> rfl

/-- A location can be read exactly when `locReadable` says so. -/
theorem locRead_isOk (ws : Words) (s : State) (l : Loc) :
    (∃ x, locRead ws s l = .ok x) ↔ locReadable ws s l = true := by
  cases l with
  | null => simp [locRead, locReadable]
  | ram a =>
    simp only [locRead, ramByte, locReadable]
    cases s.ram.read a.toNat <;> cases s.cfg.admitted <;> simp
  | reg r => cases r <;> cases ws <;> cases h : s.cfg.admitted <;> simp [locRead, locReadable, pclRead, h]

/-- Reading an operand is resolving it and reading its location. -/
theorem readOperand_ok {s u : State} {f : Byte} {a : Access} {l : Loc} {v : Byte}
    (h : readOperand s f a = .ok ⟨l, v, u⟩) :
    ∃ st, resolveOperand s f a = .ok ⟨l, st⟩ ∧ locRead .one st l = .ok (v, u) := by
  unfold readOperand at h
  split at h
  · cases h
  · rename_i r hr
    split at h
    · cases h
    · rename_i v' t ht
      cases h
      exact ⟨r.st, hr, ht⟩

theorem readOperand_moves {s u : State} {f : Byte} {a : Access} {l : Loc} {v : Byte}
    (h : readOperand s f a = .ok ⟨l, v, u⟩) : MovesOnly s u := by
  obtain ⟨st, hr, hl⟩ := readOperand_ok h
  exact (resolve_moves (resolveOperand_ok hr).1).trans (locRead_moves hl)

/-- Reading an operand leaves an FSR alone unless the operand's address moves it. -/
theorem readOperand_fsr {s u : State} {f : Byte} {a : Access} {l : Loc} {v : Byte} {n : FsrNum}
    (h : readOperand s f a = .ok ⟨l, v, u⟩) (hn : movesFsr n (dataAddr s f a) = false) : u.fsr n = s.fsr n := by
  obtain ⟨st, hr, hl⟩ := readOperand_ok h
  rw [locRead_fsr hl]
  exact resolve_fsr (resolveOperand_ok hr).1 hn

/-- Reading an operand leaves the latches of pc alone unless the operand is PCL. -/
theorem readOperand_latches {s u : State} {f : Byte} {a : Access} {l : Loc} {v : Byte}
    (h : readOperand s f a = .ok ⟨l, v, u⟩) (hl : l ≠ .reg .pcl) : u.pclath = s.pclath ∧ u.pclatu = s.pclatu := by
  obtain ⟨st, hr, hr'⟩ := readOperand_ok h
  rcases locRead_ok hr' with ⟨-, rfl⟩ | ⟨h', -⟩
  · exact resolve_latches (resolveOperand_ok hr).1
  · exact absurd h' hl

/-! ### Writing a location -/

/-- `t` is `s` but for what a write of location `l` may change: a field stays unless `l` is its register (R85). -/
structure WriteFrame (s : State) (l : Loc) (t : State) : Prop where
  pc : l ≠ .reg .pcl → t.pc = s.pc
  wreg : l ≠ .reg .wreg → t.wreg = s.wreg
  flags : l ≠ .reg .status → t.flags = s.flags
  bsr : l ≠ .reg .bsr → t.bsr = s.bsr
  fsr : ∀ n, l ≠ .reg (.fsrh n) → l ≠ .reg (.fsrl n) → t.fsr n = s.fsr n
  prodh : l ≠ .reg .prodh → t.prodh = s.prodh
  prodl : l ≠ .reg .prodl → t.prodl = s.prodl
  tblptr : l ≠ .reg .tblptru → l ≠ .reg .tblptrh → l ≠ .reg .tblptrl → t.tblptr = s.tblptr
  tablat : l ≠ .reg .tablat → t.tablat = s.tablat
  pclath : l ≠ .reg .pclath → t.pclath = s.pclath
  pclatu : l ≠ .reg .pclatu → t.pclatu = s.pclatu
  stack : l ≠ .reg .tosu → l ≠ .reg .tosh → l ≠ .reg .tosl → t.stack = s.stack
  sp : l ≠ .reg .stkptr → t.sp = s.sp
  stkful : l ≠ .reg .stkptr → t.stkful = s.stkful
  stkunf : l ≠ .reg .stkptr → t.stkunf = s.stkunf
  shadow : t.shadow = s.shadow
  gieh : l ≠ .reg .intcon → t.gieh = s.gieh
  giel : l ≠ .reg .intcon → t.giel = s.giel
  rcon : l ≠ .reg .rcon → t.rcon = s.rcon
  timeOut : t.rcon.timeOut = s.rcon.timeOut
  powerDown : t.rcon.powerDown = s.rcon.powerDown
  ram : ∀ a, (∀ b, l = .ram b → b.toNat ≠ a) → t.ram.read a = s.ram.read a
  prog : t.prog = s.prog
  hold : t.hold = s.hold
  wdtCounter : t.wdtCounter = s.wdtCounter
  wdtPostscaler : t.wdtPostscaler = s.wdtPostscaler
  runState : t.runState = s.runState
  requests : t.requests = s.requests
  skipped : t.skipped = s.skipped
  cfg : t.cfg = s.cfg
  env : t.env = s.env

theorem writeFrame_refl (s : State) (l : Loc) : WriteFrame s l s := by
  constructor <;> intros <;> rfl

theorem tosWrite_ok {s t : State} {k : Nat} {v : Byte} (h : tosWrite s k v = .ok t) :
    t = s.setTos (replaceByte s.tos k v) := by
  unfold tosWrite at h
  split at h
  · rename_i h0
    split at h
    · cases h
    · cases h
      simp [State.setTos, h0]
  · cases h
    rfl

theorem locWrite_frame {s t : State} {l : Loc} {v : Byte} (h : locWrite s l v = .ok t) : WriteFrame s l t := by
  cases l with
  | null => cases h; exact writeFrame_refl ..
  | ram a =>
    cases h
    constructor <;> try (intros; rfl)
    intro b hb
    exact Memory.read_write_other _ _ fun h' => hb a rfl h'.symm
  | reg r =>
    cases r
    case tosu | tosh | tosl =>
      have h' := tosWrite_ok h
      subst h'
      constructor <;> intros <;> simp_all [State.fsr]
    case stkptr =>
      simp only [locWrite, sfrWrite] at h
      split at h
      · cases h
      · cases h
        constructor <;> intros <;> first | rfl | (exfalso; simp_all)
    case intcon =>
      simp only [locWrite, sfrWrite] at h
      split at h
      · cases h
        constructor <;> intros <;> first | rfl | (exfalso; simp_all)
      · cases h
    case fsrh n =>
      cases h
      cases n <;> constructor <;> intros <;> first | rfl | (rename_i m _ _; cases m <;> simp_all [State.fsr])
    case fsrl n =>
      cases h
      cases n <;> constructor <;> intros <;> first | rfl | (rename_i m _ _; cases m <;> simp_all [State.fsr])
    all_goals
      cases h
      constructor <;> intros <;> first | rfl | (exfalso; simp_all)

/-- Whether a byte can be written has nothing to do with the flags. -/
theorem locWritable_flags (s : State) (fl : Flags) (v : Byte) (l : Loc) :
    locWritable { s with flags := fl } v l = locWritable s v l := by
  cases l with
  | reg r => cases r <;> rfl
  | ram a => rfl
  | null => rfl

/-- A byte can be written to a location exactly when `locWritable` says so. -/
theorem locWrite_isOk (s : State) (l : Loc) (v : Byte) : (∃ t, locWrite s l v = .ok t) ↔ locWritable s v l = true := by
  cases l with
  | null => simp [locWrite, locWritable]
  | ram a => simp [locWrite, locWritable]
  | reg r =>
    cases r
    case tosu | tosh | tosl =>
      simp only [locWrite, sfrWrite, tosWrite, locWritable]
      by_cases h0 : s.sp = 0
      · simp only [if_pos h0]
        cases h : s.cfg.admitted <;> simp [h0]
      · simp only [if_neg h0]
        exact ⟨fun _ => by rw [decide_eq_true h0, Bool.or_true], fun _ => ⟨_, rfl⟩⟩
    case stkptr => cases h : s.cfg.admitted <;> simp [locWrite, sfrWrite, locWritable, h]
    case intcon =>
      by_cases h : v.extractLsb' 3 3 = 0#3 <;> simp [locWrite, sfrWrite, locWritable, h]
    all_goals simp [locWrite, sfrWrite, locWritable]

/-- The write of a flag-writing instruction: to STATUS only the computed flags go, to any other location the result,
after the flags (R51). -/
theorem storeWithFlags_ok {s t : State} {l : Loc} {r : AluResult} (h : storeWithFlags s l r = .ok t) :
    (l = .reg .status ∧ s.cfg.admitted = false ∧ t = { s with flags := r.flags }) ∨
      (l ≠ .reg .status ∧ locWrite { s with flags := r.flags } l r.value = .ok t) := by
  unfold storeWithFlags at h
  split at h
  · rename_i hl
    split at h
    · cases h
    · rename_i ha
      cases h
      exact .inl ⟨hl, by simpa using ha, rfl⟩
  · rename_i hl
    exact .inr ⟨hl, h⟩

theorem destWithFlags_ok {s t : State} {d : Dest} {l : Loc} {r : AluResult} (h : destWithFlags s d l r = .ok t) :
    (d = .w ∧ t = { s with wreg := r.value, flags := r.flags }) ∨ (d = .f ∧ storeWithFlags s l r = .ok t) := by
  cases d with
  | w => cases h; exact .inl ⟨rfl, rfl⟩
  | f => exact .inr ⟨rfl, h⟩

theorem destPlain_ok {s t : State} {d : Dest} {l : Loc} {r : Byte} (h : destPlain s d l r = .ok t) :
    (d = .w ∧ t = { s with wreg := r }) ∨ (d = .f ∧ locWrite s l r = .ok t) := by
  cases d with
  | w => cases h; exact .inl ⟨rfl, rfl⟩
  | f => exact .inr ⟨rfl, h⟩

theorem moveWrite_ok {s t : State} {l : Loc} {v : Byte} (h : moveWrite s l v = .ok t) :
    moveForbidden l = false ∧ locWrite s l v = .ok t := by
  unfold moveWrite at h
  split at h
  · cases h
  · rename_i hl
    exact ⟨by simpa using hl, h⟩

end Sys2Proof.Machine
end

