-- ==== Sys2Proof/Laws/Ops.lean ====
section
/-! SUPPORT. Everything the shared operations of Machine/Ops.lean can do: results, even addresses, the return stack, the
shadows, resets. -/

namespace Sys2Proof.Machine

/-! ### Results -/

@[simp] theorem andThen_ok {α : Type} (v : α) (k : α → Result) : andThen (.ok v) k = k v := rfl

@[simp] theorem andThen_error {α : Type} (e : Fault) (k : α → Result) : andThen (.error e) k = .fault e := rfl

@[simp] theorem finish_ok (s : State) : finish (.ok s) = .next s := rfl

@[simp] theorem finish_error (e : Fault) : finish (.error e) = .fault e := rfl

/-- A sequence that answers has gone through its first part. -/
theorem andThen_next {α : Type} {x : Except Fault α} {k : α → Result} {t : State} (h : andThen x k = .next t) :
    ∃ v, x = .ok v ∧ k v = .next t := by
  cases x with
  | error e => cases h
  | ok v => exact ⟨v, rfl, h⟩

theorem finish_next {x : Except Fault State} {t : State} (h : finish x = .next t) : x = .ok t := by
  obtain ⟨v, hx, hv⟩ := andThen_next h
  cases hv
  exact hx

/-! ### Even addresses -/

@[simp] theorem evenAddr_bit0 (a : ProgAddr) : (evenAddr a).getLsbD 0 = false := by
  simp [evenAddr]

/-- An even address is its own. -/
theorem evenAddr_of_even {a : ProgAddr} (h : a.getLsbD 0 = false) : evenAddr a = a := by
  apply BitVec.eq_of_getLsbD_eq
  intro i hi
  interval_cases i
  · simp [evenAddr] at h ⊢
    exact h
  all_goals simp [evenAddr]

/-- An address is even as a number. -/
theorem even_iff {a : ProgAddr} : a.getLsbD 0 = false ↔ a.toNat % 2 = 0 := by
  rw [BitVec.getLsbD, Nat.testBit_zero]
  simp

/-- Even displacements keep an address even. -/
theorem even_add {a b : ProgAddr} (ha : a.getLsbD 0 = false) (hb : b.getLsbD 0 = false) : (a + b).getLsbD 0 = false := by
  rw [even_iff] at *
  rw [BitVec.toNat_add]
  omega

theorem even_double (k : ProgAddr) : (2 * k).getLsbD 0 = false := by
  rw [even_iff, BitVec.toNat_mul]
  have h2 : (2 : ProgAddr).toNat = 2 := rfl
  rw [h2]
  omega

theorem even_two : (2 : ProgAddr).getLsbD 0 = false := rfl

theorem even_four : (4 : ProgAddr).getLsbD 0 = false := rfl

theorem relTarget_even {a : ProgAddr} (h : a.getLsbD 0 = false) {w : Nat} (n : BitVec w) :
    (relTarget a n).getLsbD 0 = false :=
  even_add (even_add h even_two) (even_double _)

theorem absTarget_even (k : BitVec 20) : (absTarget k).getLsbD 0 = false := by
  unfold absTarget
  rw [BitVec.getLsbD_append]
  rfl

/-! ### The return stack -/

/-- A push that finds room does what follows it on the pushed state. -/
theorem pushThen_room {s : State} (h : roomToPush s = true) (v : ProgAddr) (k : State → Result) :
    pushThen s v k = k (s.pushed v) := by
  simp only [roomToPush, Bool.and_eq_true, Bool.or_eq_true, decide_eq_true_eq, Bool.not_eq_true', BitVec.lt_def] at h
  unfold pushThen
  rw [if_neg (by rw [BitVec.le_def]; omega)]
  simp only [State.pushed_sp]
  split
  · rename_i hc
    simp only [Bool.and_eq_true, Bool.not_eq_true', decide_eq_true_eq] at hc
    obtain ⟨⟨h1, h2⟩, h3⟩ := hc
    rcases h.2 with (h' | h') | h'
    · exact absurd h3 h'
    · simp [h1] at h'
    · simp [h2] at h'
  · rfl

/-- The number SP has after a push that finds room. -/
theorem sp_succ {s : State} (h : s.sp < s.cfg.stackDepth) : (s.sp + 1).toNat = s.sp.toNat + 1 := by
  have hs : (s.sp + 1).toNat = (s.sp.toNat + 1) % 32 := by simp [BitVec.toNat_add]
  have hd := s.cfg.stackDepth.isLt
  rw [BitVec.lt_def] at h
  omega

theorem sp_lt_of_room {s : State} (h : roomToPush s = true) : s.sp.toNat < 31 := by
  simp only [roomToPush, Bool.and_eq_true, decide_eq_true_eq, BitVec.lt_def] at h
  have hd := s.cfg.stackDepth.isLt
  omega

/-- A pop that finds an entry does what follows it on the value and the popped state. -/
theorem popThen_held {s : State} (h : s.sp ≠ 0) (k : ProgAddr → State → Result) :
    popThen s k = k s.tos { s with sp := s.sp - 1 } := by
  simp only [popThen, if_neg h]

/-- How a push can answer: by the stack's reset (R40), or by what follows, on the pushed state or, the stack being full,
on the state with STKFUL set. -/
theorem pushThen_next {s t : State} {v : ProgAddr} {k : State → Result} (h : pushThen s v k = .next t) :
    (pushResets s = true ∧
      (t = deviceReset .stack { s with stkful := true } ∨ t = deviceReset .stack (s.pushed v))) ∨
    (s.cfg.stackDepth ≤ s.sp ∧ s.cfg.admitted = false ∧ s.cfg.stvren = false ∧ k { s with stkful := true } = .next t) ∨
    (s.sp < s.cfg.stackDepth ∧ k (s.pushed v) = .next t) := by
  unfold pushThen at h
  simp only [pushResets, Bool.and_eq_true, Bool.not_eq_true', decide_eq_true_eq]
  split at h
  · rename_i hf
    split at h
    · cases h
    · rename_i ha
      split at h
      · rename_i hs
        cases h
        rw [BitVec.le_def] at hf
        exact .inl ⟨⟨⟨by simpa using ha, hs⟩, by omega⟩, .inl rfl⟩
      · rename_i hs
        exact .inr (.inl ⟨hf, by simpa using ha, by simpa using hs, h⟩)
  · rename_i hf
    have hlt : s.sp < s.cfg.stackDepth := by
      rw [BitVec.le_def] at hf
      rw [BitVec.lt_def]
      omega
    dsimp only at h
    split at h
    · rename_i hc
      simp only [Bool.and_eq_true, Bool.not_eq_true', decide_eq_true_eq, State.pushed_sp] at hc
      cases h
      have hn : s.cfg.stackDepth.toNat = s.sp.toNat + 1 := by rw [← hc.2, sp_succ hlt]
      exact .inl ⟨⟨hc.1, by omega⟩, .inr rfl⟩
    · exact .inr (.inr ⟨hlt, h⟩)

/-- How a pop can answer: by the stack's reset (R40), or by what follows, on the value popped or, the stack being empty,
on 0 and the state with STKUNF set and pc at 0. -/
theorem popThen_next {s t : State} {k : ProgAddr → State → Result} (h : popThen s k = .next t) :
    (s.sp = 0 ∧ s.cfg.admitted = false ∧ s.cfg.stvren = true ∧ t = deviceReset .stack { s with stkunf := true }) ∨
    (s.sp = 0 ∧ s.cfg.admitted = false ∧ s.cfg.stvren = false ∧ k 0 ({ s with stkunf := true }.setPc 0) = .next t) ∨
    (s.sp ≠ 0 ∧ k s.tos { s with sp := s.sp - 1 } = .next t) := by
  unfold popThen at h
  split at h
  · rename_i h0
    split at h
    · cases h
    · rename_i ha
      split at h
      · rename_i hs
        cases h
        exact .inl ⟨h0, by simpa using ha, hs, rfl⟩
      · rename_i hs
        exact .inr (.inl ⟨h0, by simpa using ha, by simpa using hs, h⟩)
  · rename_i h0
    exact .inr (.inr ⟨h0, h⟩)

/-- A push as one record: STKFUL is set by the push that fills the stack (R38). -/
theorem State.pushed_eq (s : State) (v : ProgAddr) :
    s.pushed v =
      { s with
        sp := s.sp + 1
        stack := s.stack.setIfInBounds s.sp.toNat v
        stkful := s.stkful || decide (s.sp + 1 = s.cfg.stackDepth) } := by
  unfold State.pushed
  dsimp only
  split
  · rename_i hh
    rw [decide_eq_true hh]
    simp
  · rename_i hh
    rw [decide_eq_false hh]
    simp

/-- The top of the stack after a push that finds room is what was pushed. -/
theorem State.tos_pushed {s : State} (h : s.sp.toNat < 31) (v : ProgAddr) : (s.pushed v).tos = v := by
  have hs : (s.sp + 1).toNat = (s.sp.toNat + 1) % 32 := by simp [BitVec.toNat_add]
  have hs' : (s.sp + 1).toNat - 1 = s.sp.toNat := by omega
  have h0 : ¬ s.sp + 1 = 0 := by
    intro h'
    have h1 : (s.sp + 1).toNat = 0 := by rw [h']; rfl
    omega
  unfold State.tos
  rw [State.pushed_sp, State.pushed_stack, if_neg h0, hs', Vector.getElem?_setIfInBounds]
  simp [h]

/-- A push that finds room leaves the entries below. -/
theorem State.pushed_below (s : State) (v : ProgAddr) {k : Nat} (h : k < s.sp.toNat) :
    (s.pushed v).stack[k]? = s.stack[k]? := by
  simp only [State.pushed_stack, Vector.getElem?_setIfInBounds]
  rw [if_neg (by omega)]

/-! ### Device resets -/

/-- Every device reset starts again at the reset vector with the core running and interrupts off (R310, R315). -/
theorem deviceReset_start (k : ResetKind) (s : State) :
    (deviceReset k s).pc = 0 ∧ (deviceReset k s).runState = .running ∧ (deviceReset k s).gieh = false ∧
      (deviceReset k s).giel = false ∧ (deviceReset k s).sp = 0 := by
  cases k <;> exact ⟨rfl, rfl, rfl, rfl, rfl⟩

/-- No interrupt is requested after a device reset, and no instruction is being passed over. -/
theorem deviceReset_quiet (k : ResetKind) (s : State) :
    (deviceReset k s).requests = {} ∧ (deviceReset k s).skipped = false := by
  cases k <;> exact ⟨rfl, rfl⟩

/-- A device reset keeps the program image, the configuration and the environment's moves. -/
theorem deviceReset_kept (k : ResetKind) (s : State) :
    (deviceReset k s).prog = s.prog ∧ (deviceReset k s).cfg = s.cfg ∧ (deviceReset k s).env = s.env := by
  cases k <;> exact ⟨rfl, rfl, rfl⟩

theorem deviceReset_stack_ram (s : State) : (deviceReset .stack s).ram = s.ram := rfl

end Sys2Proof.Machine

namespace Sys2Proof

/-! ### Which instructions push and pop -/

theorem Instr.pushes_cases {i : Instr} (h : i.pushes = true) :
    (∃ k f, i = .call k f) ∨ (∃ n, i = .rcall n) ∨ i = .push ∨ i = .callw := by
  cases i
  case call k f => exact .inl ⟨k, f, rfl⟩
  case rcall n => exact .inr (.inl ⟨n, rfl⟩)
  case push => exact .inr (.inr (.inl rfl))
  case callw => exact .inr (.inr (.inr rfl))
  all_goals exact absurd h Bool.false_ne_true

theorem Instr.pops_cases {i : Instr} (h : i.pops = true) :
    i = .pop ∨ (∃ f, i = .ret f) ∨ (∃ k, i = .retlw k) ∨ (∃ f, i = .retfie f) ∨ (∃ k, i = .addulnk k) ∨
      ∃ k, i = .subulnk k := by
  cases i
  case pop => exact .inl rfl
  case ret f => exact .inr (.inl ⟨f, rfl⟩)
  case retlw k => exact .inr (.inr (.inl ⟨k, rfl⟩))
  case retfie f => exact .inr (.inr (.inr (.inl ⟨f, rfl⟩)))
  case addulnk k => exact .inr (.inr (.inr (.inr (.inl ⟨k, rfl⟩))))
  case subulnk k => exact .inr (.inr (.inr (.inr (.inr ⟨k, rfl⟩))))
  all_goals exact absurd h Bool.false_ne_true

end Sys2Proof
end

