-- ==== Sys2Proof/Laws/Shapes.lean ====
section
/-! SUPPORT. The instruction shapes of Machine/Operands.lean: what each does when its operand answers, and what has happened
when it answers. -/

namespace Sys2Proof.Machine

variable {s t : State} {f : Byte} {d : Dest} {a : Access}

/-! ### Running a shape -/

theorem flagOp_of_read {l : Loc} {v : Byte} {u : State} (h : readOperand (s.advance 2) f a = .ok ⟨l, v, u⟩)
    (op : Byte → Byte → Flags → AluResult) :
    flagOp s f d a op = finish (destWithFlags u d l (op v u.wreg u.flags)) := by
  simp only [flagOp, h, andThen_ok]

theorem plainOp_of_read {l : Loc} {v : Byte} {u : State} (h : readOperand (s.advance 2) f a = .ok ⟨l, v, u⟩)
    (op : Byte → Byte) : plainOp s f d a op = finish (destPlain u d l (op v)) := by
  simp only [plainOp, h, andThen_ok]

theorem writeOnly_of_resolve {l : Loc} {u : State} (h : resolveOperand (s.advance 2) f a = .ok ⟨l, u⟩)
    (w : State → Loc → Except Fault State) : writeOnly s f a w = finish (w u l) := by
  simp only [writeOnly, h, andThen_ok]

theorem testSkip_of_read {l : Loc} {v : Byte} {u : State} (h : readOperand (s.advance 2) f a = .ok ⟨l, v, u⟩)
    (skips : Byte → Byte → Bool) : testSkip s f a skips = .next (u.skipIf (skips v u.wreg)) := by
  simp only [testSkip, h, andThen_ok]

theorem countSkip_of_read {l : Loc} {v : Byte} {u : State} (h : readOperand (s.advance 2) f a = .ok ⟨l, v, u⟩)
    (op : Byte → Byte) (skips : Byte → Bool) :
    countSkip s f d a op skips =
      if d = .f ∧ l = .reg .pcl then .fault .pclSkipDestination
      else andThen (destPlain u d l (op v)) fun t => .next (t.skipIf (skips (op v))) := by
  simp only [countSkip, h, andThen_ok]

/-- A skip from an even pc: to the next instruction, or past one more word. -/
theorem skipIf_of_even {u : State} (hp : s.pc.getLsbD 0 = false) (hu : u.pc = evenAddr (s.pc + 2)) (b : Bool) :
    u.skipIf b = skipTo u s.pc b := by
  have h4 : s.pc + 2 + 2 = s.pc + 4 := by rw [BitVec.add_assoc]; rfl
  rw [evenAddr_of_even (even_add hp even_two)] at hu
  simp only [State.skipIf, State.setPc, skipTo, hu]
  cases b
  · simp only [Bool.false_eq_true, if_false, evenAddr_of_even (even_add hp even_two)]
  · simp only [if_true, h4, evenAddr_of_even (even_add hp even_four)]

/-! ### Having run a shape -/

theorem flagOp_next {op : Byte → Byte → Flags → AluResult} (h : flagOp s f d a op = .next t) :
    ∃ l v u, readOperand (s.advance 2) f a = .ok ⟨l, v, u⟩ ∧ destWithFlags u d l (op v u.wreg u.flags) = .ok t := by
  obtain ⟨⟨l, v, u⟩, hr, hk⟩ := andThen_next h
  exact ⟨l, v, u, hr, finish_next hk⟩

theorem plainOp_next {op : Byte → Byte} (h : plainOp s f d a op = .next t) :
    ∃ l v u, readOperand (s.advance 2) f a = .ok ⟨l, v, u⟩ ∧ destPlain u d l (op v) = .ok t := by
  obtain ⟨⟨l, v, u⟩, hr, hk⟩ := andThen_next h
  exact ⟨l, v, u, hr, finish_next hk⟩

theorem writeOnly_next {w : State → Loc → Except Fault State} (h : writeOnly s f a w = .next t) :
    ∃ l u, resolveOperand (s.advance 2) f a = .ok ⟨l, u⟩ ∧ w u l = .ok t := by
  obtain ⟨⟨l, u⟩, hr, hk⟩ := andThen_next h
  exact ⟨l, u, hr, finish_next hk⟩

theorem testSkip_next {skips : Byte → Byte → Bool} (h : testSkip s f a skips = .next t) :
    ∃ l v u, readOperand (s.advance 2) f a = .ok ⟨l, v, u⟩ ∧ t = u.skipIf (skips v u.wreg) := by
  obtain ⟨⟨l, v, u⟩, hr, hk⟩ := andThen_next h
  cases hk
  exact ⟨l, v, u, hr, rfl⟩

theorem countSkip_next {op : Byte → Byte} {skips : Byte → Bool} (h : countSkip s f d a op skips = .next t) :
    ∃ l v u w, readOperand (s.advance 2) f a = .ok ⟨l, v, u⟩ ∧ ¬ (d = .f ∧ l = .reg .pcl) ∧
      destPlain u d l (op v) = .ok w ∧ t = w.skipIf (skips (op v)) := by
  obtain ⟨⟨l, v, u⟩, hr, hk⟩ := andThen_next h
  dsimp only at hk
  split at hk
  · cases hk
  · rename_i hp
    obtain ⟨w, hw, hn⟩ := andThen_next hk
    cases hn
    exact ⟨l, v, u, w, hr, hp, hw, rfl⟩

theorem mulwf_next (h : execMulwf f a s = .next t) :
    ∃ l v u x y, readOperand (s.advance 2) f a = .ok ⟨l, v, u⟩ ∧ t = { u with prodh := x, prodl := y } := by
  obtain ⟨⟨l, v, u⟩, hr, hk⟩ := andThen_next h
  cases hk
  exact ⟨l, v, u, _, _, hr, rfl⟩

theorem movff_next {fs fd : DataAddr} (h : execMovff fs fd s = .next t) :
    ∃ x v u z, resolve (s.advance 4) fs = .ok x ∧ locRead .two x.st x.loc = .ok (v, u) ∧ resolve u fd = .ok z ∧
      moveForbidden z.loc = false ∧ locWrite z.st z.loc v = .ok t := by
  obtain ⟨x, hx, hk⟩ := andThen_next h
  obtain ⟨⟨v, u⟩, hy, hk⟩ := andThen_next hk
  obtain ⟨z, hz, hk⟩ := andThen_next hk
  exact ⟨x, v, u, z, hx, hy, hz, moveWrite_ok (finish_next hk)⟩

/-! ### The gate of the extended set -/

theorem requireXinst_next {i : Instr} {k : Result} (h : requireXinst s i k = .next t) :
    s.cfg.xinst = true ∧ k = .next t := by
  unfold requireXinst at h
  split at h
  · rename_i hx
    exact ⟨hx, h⟩
  · cases h

theorem requireXinst_on (h : s.cfg.xinst = true) (i : Instr) (k : Result) : requireXinst s i k = k := by
  simp only [requireXinst, h, if_true]

theorem movsf_next {zs : BitVec 7} {fd : DataAddr} (h : execMovsf zs fd s = .next t) :
    s.cfg.xinst = true ∧ ∃ l v u z, resolveIndexed (s.advance 4) zs = .ok l ∧
      locRead .two (s.advance 4) l = .ok (v, u) ∧ resolve u fd = .ok z ∧ moveForbidden z.loc = false ∧
      locWrite z.st z.loc v = .ok t := by
  obtain ⟨hx, h⟩ := requireXinst_next h
  obtain ⟨l, hl, hk⟩ := andThen_next h
  obtain ⟨⟨v, u⟩, hy, hk⟩ := andThen_next hk
  obtain ⟨z, hz, hk⟩ := andThen_next hk
  exact ⟨hx, l, v, u, z, hl, hy, hz, moveWrite_ok (finish_next hk)⟩

theorem movss_next {zs zd : BitVec 7} (h : execMovss zs zd s = .next t) :
    s.cfg.xinst = true ∧ ∃ l v u m, resolveIndexed (s.advance 4) zs = .ok l ∧
      locRead .two (s.advance 4) l = .ok (v, u) ∧ resolveIndexed u zd = .ok m ∧ moveForbidden m = false ∧
      locWrite u m v = .ok t := by
  obtain ⟨hx, h⟩ := requireXinst_next h
  obtain ⟨l, hl, hk⟩ := andThen_next h
  obtain ⟨⟨v, u⟩, hy, hk⟩ := andThen_next hk
  obtain ⟨m, hm, hk⟩ := andThen_next hk
  exact ⟨hx, l, v, u, m, hl, hy, hm, moveWrite_ok (finish_next hk)⟩

theorem pushl_next {k : Byte} (h : execPushl k s = .next t) :
    s.cfg.xinst = true ∧ isVirtual s.fsr2 = false ∧ ∃ l u, resolveDirect (s.advance 2) s.fsr2 = .ok l ∧
      locWrite (s.advance 2) l k = .ok u ∧ t = { u with fsr2 := u.fsr2 - 1 } := by
  obtain ⟨hx, h⟩ := requireXinst_next h
  split at h
  · cases h
  · rename_i hv
    obtain ⟨l, hl, hk⟩ := andThen_next h
    obtain ⟨u, hu, hk⟩ := andThen_next hk
    cases hk
    exact ⟨hx, by simpa using hv, l, u, hl, hu, rfl⟩

/-! ### Table operations -/

theorem tableOp_next {access : State → TblAddr → Except Fault State} {p q : TblAddr} (h : tableOp s access p q = .next t) :
    ∃ u, access (s.advance 2) p = .ok u ∧ t = { u with tblptr := q } := by
  obtain ⟨u, hu, hk⟩ := andThen_next h
  cases hk
  exact ⟨u, hu, rfl⟩

theorem tableRead_ok {p : TblAddr} (h : tableRead s p = .ok t) :
    p.getLsbD 21 = false ∧ ∃ v, progByte s (p.setWidth 21) = .ok v ∧ t = { s with tablat := v } := by
  unfold tableRead at h
  split at h
  · cases h
  · rename_i hp
    split at h
    · cases h
    · rename_i v hv
      cases h
      exact ⟨by simpa using hp, v, hv, rfl⟩

theorem tableWrite_ok {p : TblAddr} (h : tableWrite s p = .ok t) :
    p.getLsbD 21 = false ∧ t = { s with hold := s.hold.write (p.toNat % s.cfg.holdBytes) s.tablat } := by
  unfold tableWrite at h
  split at h
  · cases h
  · rename_i hp
    cases h
    exact ⟨by simpa using hp, rfl⟩

/-! ### Pointers to FSRs named by a field -/

theorem fsrNum_some {f : BitVec 2} (h : f ≠ 3) : ∃ n, fsrNum f = some n := by
  have h' : ∀ f : BitVec 2, f ≠ 3 → (fsrNum f).isSome = true := by decide
  exact Option.isSome_iff_exists.mp (h' f h)

theorem lfsr_next {f : BitVec 2} {k : BitVec 12} (h : execLfsr f k s = .next t) :
    ∃ n, fsrNum f = some n ∧ t = (s.advance 4).setFsr n k := by
  unfold execLfsr at h
  split at h
  · rename_i n hn
    cases h
    exact ⟨n, hn, rfl⟩
  · cases h

theorem addfsr_next {f : BitVec 2} {k : BitVec 6} (h : execAddfsr f k s = .next t) :
    s.cfg.xinst = true ∧ ∃ n, fsrNum f = some n ∧ t = (s.advance 2).setFsr n (s.fsr n + k.setWidth 12) := by
  unfold execAddfsr at h
  split at h
  · rename_i n hn
    obtain ⟨hx, h⟩ := requireXinst_next h
    cases h
    exact ⟨hx, n, hn, rfl⟩
  · cases h

theorem subfsr_next {f : BitVec 2} {k : BitVec 6} (h : execSubfsr f k s = .next t) :
    s.cfg.xinst = true ∧ ∃ n, fsrNum f = some n ∧ t = (s.advance 2).setFsr n (s.fsr n - k.setWidth 12) := by
  unfold execSubfsr at h
  split at h
  · rename_i n hn
    obtain ⟨hx, h⟩ := requireXinst_next h
    cases h
    exact ⟨hx, n, hn, rfl⟩
  · cases h

end Sys2Proof.Machine
end

