-- ==== Sys2Proof/Laws/Step.lean ====
section
/-! SUPPORT. What one step can be: a reset, an interrupt entry, an instruction or sleep; and what a fetch gives. -/

namespace Sys2Proof.Machine

/-- Everything a step can answer. -/
theorem step_next {s t : State} (h : step s = .next t) :
    (∃ k u, turn s = .reset k u ∧ t = deviceReset k u) ∨
      (∃ p u, turn s = .interrupt p u ∧ takeInterrupt p u = .next t) ∨
      (∃ u i, turn s = .instruction u ∧ fetch u = .ok i ∧ exec i u.tickWdt = .next t) ∨
      turn s = .asleep t := by
  unfold step at h
  split at h
  · rename_i k u hu
    cases h
    exact .inl ⟨k, u, hu, rfl⟩
  · rename_i p u hu
    exact .inr (.inl ⟨p, u, hu, h⟩)
  · rename_i u hu
    obtain ⟨i, hi, hk⟩ := andThen_next h
    exact .inr (.inr (.inl ⟨u, i, hu, hi, hk⟩))
  · rename_i u hu
    cases h
    exact .inr (.inr (.inr hu))

/-! ### Which turn it is -/

/-- A boundary at which no agent resets the device or lets the watchdog time out has no reset. -/
theorem resetDue_none {s : State} (h : .powerOn ∉ s.movesNow ∧ .masterClear ∉ s.movesNow ∧ .wdtTimeout ∉ s.movesNow) :
    resetDue s = none := by
  simp [resetDue, wdtExpires, h]

/-- The turns, with the state each is made in: the state after the moves of the boundary, but for what the turn names. -/
theorem turn_cases (s : State) :
    (∃ k, resetDue s = some k ∧ turn s = .reset k s.arrive) ∨
      (resetDue s = none ∧ s.runState = .sleeping ∧ turn s = sleepingTurn (wdtExpires s) s.arrive) ∨
      (resetDue s = none ∧ s.runState = .running ∧ turn s = runningTurn s.arrive) := by
  unfold turn
  cases h : resetDue s with
  | some k => exact .inl ⟨k, rfl, rfl⟩
  | none =>
    cases hr : s.runState with
    | sleeping => exact .inr (.inl ⟨rfl, rfl, rfl⟩)
    | running => exact .inr (.inr ⟨rfl, rfl, rfl⟩)

/-- What a sleeping core can do. -/
theorem sleepingTurn_cases (b : Bool) (t : State) :
    (∃ to', sleepingTurn b t =
      .instruction { t with runState := .running, skipped := false, rcon := { t.rcon with timeOut := to' } }) ∨
    (b = false ∧ t.requests = {} ∧ sleepingTurn b t = .asleep t) := by
  unfold sleepingTurn
  cases b with
  | true => exact .inl ⟨false, rfl⟩
  | false =>
    by_cases h : t.requests = {}
    · exact .inr ⟨rfl, h, by rw [if_neg (by decide), if_pos h]⟩
    · exact .inl ⟨t.rcon.timeOut, by rw [if_neg (by decide), if_neg h]⟩

/-- What a running core can do. -/
theorem runningTurn_cases (t : State) :
    runningTurn t = .instruction { t with skipped := false } ∨
      ∃ p, interruptDue t = some p ∧ insideSkip t = false ∧ runningTurn t = .interrupt p { t with skipped := false } := by
  unfold runningTurn
  cases h : interruptDue t with
  | none => exact .inl rfl
  | some p =>
    cases hs : insideSkip t
    · exact .inr ⟨p, rfl, rfl, by simp⟩
    · exact .inl (by simp)

/-! ### Fetching -/

theorem progWord_of_bytes {s : State} {p : ProgAddr} {lo hi : Byte} (h0 : progByte s p = .ok lo)
    (h1 : progByte s (p + 1) = .ok hi) : progWord s p = .ok (wordOfBytes lo hi) := by
  simp only [progWord, h0, h1]

/-- A first word that is no instruction is the fault its decoding error is. -/
theorem fetch_first_error {s : State} {w0 : Word} {e : DecodeError} (h : progWord s s.pc = .ok w0)
    (hd : decodeFirst s.cfg.xinst w0 = .error e) : fetch s = .error (faultOfDecode e) := by
  simp only [fetch, h, hd]

/-- A one-word instruction at pc. -/
theorem fetch_one {s : State} {w0 : Word} {r : Row} (h : progWord s s.pc = .ok w0)
    (hd : decodeFirst s.cfg.xinst w0 = .ok r) (h2 : r.two = false) : fetch s = .ok (r.build w0 0) := by
  simp only [fetch, h, hd, h2, decodeSecond_one h2, Bool.false_eq_true, if_false]

/-- A two-word instruction at pc. -/
theorem fetch_two {s : State} {w0 w1 : Word} {r : Row} (h : progWord s s.pc = .ok w0)
    (hd : decodeFirst s.cfg.xinst w0 = .ok r) (h2 : r.two = true) (h' : progWord s (s.pc + 2) = .ok w1)
    (hf : w1 &&& r.mask2 = r.pattern2) : fetch s = .ok (r.build w0 w1) := by
  simp only [fetch, h, hd, h2, h', decodeSecond_two h2 w0 hf, if_true]

/-- A fetch that answers has found the instruction its words decode to. -/
theorem fetch_ok {s : State} {i : Instr} (h : fetch s = .ok i) :
    ∃ w0 r, progWord s s.pc = .ok w0 ∧ decodeFirst s.cfg.xinst w0 = .ok r ∧
      ((r.two = false ∧ decodeSecond r w0 0 = .ok i) ∨
        (r.two = true ∧ ∃ w1, progWord s (s.pc + 2) = .ok w1 ∧ decodeSecond r w0 w1 = .ok i)) := by
  unfold fetch at h
  split at h
  · cases h
  · rename_i w0 h0
    split at h
    · cases h
    · rename_i r hr
      refine ⟨w0, r, h0, hr, ?_⟩
      split at h
      · rename_i h2
        split at h
        · cases h
        · rename_i w1 h1
          split at h
          · cases h
          · rename_i j hj
            cases h
            exact .inr ⟨h2, w1, h1, hj⟩
      · rename_i h2
        split at h
        · cases h
        · rename_i j hj
          cases h
          exact .inl ⟨by simpa using h2, hj⟩

end Sys2Proof.Machine
end

