-- ==== Sys2Proof/Certificates/Slice0/Obligations.lean ====
section
/-! DEFINITION. The statements for the provers, each over the model alone. A docstring names the rule of spec/ a statement
formalises, or the log entry (notes/assumptions) of a choice of the model that it rests on. -/

open Sys2Proof Sys2Proof.Machine

/-! ### Reset and invariants -/

/-- The values 10_state.md R53 gives after power-on, in `State.reset` (the registers it leaves unknown are log entry 2 and
not stated), so that it is a `PowerOnState` of 70_reset_and_hazards.md R317. -/
def Obligations.PowerOnResetValues : Prop :=
  State.reset.pc = 0x000000 ∧ State.reset.sp = 0 ∧ State.reset.stkful = false ∧ State.reset.stkunf = false ∧
  State.reset.tos = 0 ∧ State.reset.pclatu = 0 ∧ State.reset.pclath = 0 ∧ State.reset.tblptr = 0 ∧
  State.reset.tablat = 0 ∧ State.reset.bsr = 0 ∧ (∀ n, (State.reset.fsr n).extractLsb' 8 4 = 0#4) ∧
  State.reset.gieh = false ∧ State.reset.giel = false ∧ State.reset.rcon.ipen = false ∧ State.reset.rcon.ri = true ∧
  State.reset.rcon.timeOut = true ∧ State.reset.rcon.powerDown = true ∧ State.reset.rcon.por = false ∧
  State.reset.rcon.bor = false ∧ State.reset.wdtCounter = 0 ∧ State.reset.wdtPostscaler = 0 ∧
  State.reset.runState = .running ∧ State.reset.ram = [] ∧ State.reset.hold = [] ∧ powerOnState State.reset = true

/-- The invariant holds after reset. -/
def Obligations.ResetStateMeetsInvariant : Prop := State.reset.Inv

/-- Every step keeps the invariant: pc even (10_state.md R34), memories canonical, only memory that exists listed. -/
def Obligations.StepKeepsInvariant : Prop := ∀ s t, s.Inv → step s = .next t → t.Inv

/-- 20_memory.md R95, 10_state.md R47: no step changes program memory or the configuration. -/
def Obligations.StepKeepsProgramAndConfiguration : Prop := ∀ s t, step s = .next t → t.prog = s.prog ∧ t.cfg = s.cfg

/-- 70_reset_and_hazards.md R315, R310: every kind of reset starts at 0x000000 with interrupts off, none requested (log entry 12), the
core running, and the configuration, `XINST` among it, as it was. -/
def Obligations.EveryResetStartsAtVectorZero : Prop :=
  ∀ k s, (deviceReset k s).pc = 0x000000 ∧ (deviceReset k s).gieh = false ∧ (deviceReset k s).giel = false ∧
    (deviceReset k s).runState = .running ∧ (deviceReset k s).requests = {} ∧ (deviceReset k s).cfg = s.cfg ∧
    (deviceReset k s).prog = s.prog

/-! ### Encoding -/

/-- Decoding the encoding of any well-formed instruction gives it back, with whatever bytes follow left over; an extended
instruction needs `XINST = 1`. -/
def Obligations.DecodeOfEncodeGivesInstruction : Prop :=
  ∀ (xinst : Bool) (i : Instr) (rest : List Byte), i.wellFormed = true → (i.isExtended = true → xinst = true) →
    decodeBytes xinst (encodeBytes i ++ rest) = .ok (i, rest)

/-- Words written out from 30_encoding.md R113 to R118 decode to the instructions they stand for. -/
def Obligations.SpecWordsDecode : Prop :=
  decodeWords false 0b0010010000100000 0 = .ok (.addwf 0x20 .w .access) ∧
  decodeWords false 0b1100000000100101 0b1111000100110010 = .ok (.movff 0x025 0x132) ∧
  decodeWords false 0b1001111000100000 0 = .ok (.bcf 0x20 7 .access) ∧
  decodeWords false 0b1110110100110100 0b1111000000010010 = .ok (.call 0x01234 true) ∧
  decodeWords false 0b1101111111111110 0 = .ok (.rcall (-2)) ∧
  decodeWords false 0b1110111000100011 0b1111000010101011 = .ok (.lfsr 2 0x3AB) ∧
  decodeWords false 0b0000000000001011 0 = .ok .tblrdPreInc ∧
  decodeWords true 0b1110100010100011 0 = .ok (.addfsr 2 0x23) ∧
  decodeWords true 0b1110101110000101 0b1111000000000110 = .ok (.movss 0x05 0x06)

/-- 30_encoding.md R119, R120, R122: a word fits at most one row of the opcode table, and fits none exactly if it is one of
the reserved words R122 lists. -/
def Obligations.EveryWordIsOneRowOrReserved : Prop :=
  (∀ (w : Word) (r q : Row), r ∈ opcodeRows → q ∈ opcodeRows → r.fits w = true → q.fits w = true → r = q) ∧
    ∀ w : Word, lookupRow w = none ↔ reservedWord w = true

/-- 30_encoding.md R122, R123: where the step executes an instruction, a reserved word fetched is `ReservedEncoding` of it; a second
word without 1111 on top, or for `LFSR` without 1111 0000, is `BadSecondWord`. -/
def Obligations.ReservedAndBadWordsStop : Prop :=
  ∀ (s t : State) (w0 : Word), turn s = .instruction t → progWord t t.pc = .ok w0 →
    (reservedWord w0 = true → step s = .fault (.reservedEncoding w0)) ∧
    ∀ w1 : Word, progWord t (t.pc + 2) = .ok w1 → twoWordFirst t.cfg.xinst w0 = true → goodSecondWord w0 w1 = false →
      step s = .fault .badSecondWord

/-- 30_encoding.md R124, 45_extended.md R260: with `XINST = 0` a first word of the extended set is `ExtendedDisabled` of it, and each
of the eight extended instructions stops so. -/
def Obligations.ExtendedSetNeedsXinst : Prop :=
  (∀ (s t : State) (w0 : Word), turn s = .instruction t → t.cfg.xinst = false → progWord t t.pc = .ok w0 →
    extendedWord w0 = true → step s = .fault (.extendedDisabled w0)) ∧
  ∀ (i : Instr) (s : State), i.isExtended = true → i.wellFormed = true → s.cfg.xinst = false →
    exec i s = .fault (.extendedDisabled (firstWord i))

/-- 20_memory.md R73, 30_encoding.md R120, 60_exceptions.md R285: at a boundary where no agent resets the device or lets the watchdog time
out and no interrupt is due, a running core executes the instruction at pc, whatever other moves the environment makes there,
and also with none to come. Where an instruction is executed and the bytes at pc decode to one, the step is exec of it; the
step adds only the watchdog's count (log entry 14). The first part of that is for instructions that two bytes decode to, the
second for those that need four. -/
def Obligations.StepRunsDecodedInstruction : Prop :=
  (∀ s : State, s.runState = .running → .powerOn ∉ s.movesNow → .masterClear ∉ s.movesNow → .wdtTimeout ∉ s.movesNow →
    interruptDue s.arrive = none →
    turn s = .instruction { s with requests := s.requests.after s.movesNow, env := s.env.tail, skipped := false }) ∧
  (∀ s : State, s.runState = .running → s.env = [] → interruptDue s = none →
    turn s = .instruction { s with skipped := false }) ∧
  ∀ (s t : State) (b0 b1 : Byte) (i : Instr), turn s = .instruction t → progByte t t.pc = .ok b0 →
    progByte t (t.pc + 1) = .ok b1 →
    (decodeBytes t.cfg.xinst [b0, b1] = .ok (i, []) → step s = exec i t.tickWdt) ∧
      ∀ b2 b3 : Byte, progByte t (t.pc + 2) = .ok b2 → progByte t (t.pc + 2 + 1) = .ok b3 →
        decodeBytes t.cfg.xinst [b0, b1, b2, b3] = .ok (i, []) → step s = exec i t.tickWdt

/-- 42_control.md R205, 40_byte_oriented.md R141, 60_exceptions.md R286: a word 1111 xxxx xxxx xxxx executed as a first word only advances
pc, so a skip onto the second word of a two-word instruction passes it over; and with no reset at the boundary it does so
before any interrupt that is due is entered, while after a skip over any other word the interrupt comes first. The bit
`skipped`, and a reserved word 0xEE30 to 0xEE3F counting as one word, are the model's choices (log entry 35), and so is that
the word after the skipped first word need not have 1111 on top (log entry 36). -/
def Obligations.SecondWordRunsAsNop : Prop :=
  (∀ (s t : State) (w0 : Word), turn s = .instruction t → progWord t t.pc = .ok w0 →
    w0.extractLsb' 12 4 = 0b1111#4 → step s = .next { t.tickWdt with pc := evenAddr (t.pc + 2) }) ∧
  ∀ (s : State) (w0 : Word), s.runState = .running → resetDue s = none → s.skipped = true →
    progWord s (s.pc - 2) = .ok w0 →
    (twoWordFirst s.cfg.xinst w0 = true → turn s = .instruction { s.arrive with skipped := false }) ∧
    (twoWordFirst s.cfg.xinst w0 = false → ∀ p, interruptDue s.arrive = some p →
      turn s = .interrupt p { s.arrive with skipped := false })

/-! ### Flags and arithmetic -/

/-- 10_state.md R28, R26: an addition's result and flags, in exact numbers; OV says that the signed sum does not fit, which
is R28's condition on the three sign bits. -/
def Obligations.AdditionFlagsAreExact : Prop :=
  ∀ (a b : Byte) (cin : Bool),
    (addFlags a b cin).value.toNat = (a.toNat + b.toNat + cin.toNat) % 256 ∧
    ((addFlags a b cin).flags.c = true ↔ 255 < a.toNat + b.toNat + cin.toNat) ∧
    ((addFlags a b cin).flags.dc = true ↔ 15 < a.toNat % 16 + b.toNat % 16 + cin.toNat) ∧
    ((addFlags a b cin).flags.z = true ↔ (addFlags a b cin).value = 0) ∧
    ((addFlags a b cin).flags.n = true ↔ 128 ≤ (addFlags a b cin).value.toNat) ∧
    ((addFlags a b cin).flags.ov = true ↔
      (addFlags a b cin).value.toInt ≠ a.toInt + b.toInt + (cin.toNat : Int)) ∧
    ((addFlags a b cin).flags.ov = true ↔
      a.getLsbD 7 = b.getLsbD 7 ∧ (addFlags a b cin).value.getLsbD 7 ≠ a.getLsbD 7)

/-- 10_state.md R29, R26: a subtraction's result and flags, in exact numbers; C and DC say no borrow, OV that the signed
difference does not fit, which is R29's condition on the three sign bits. -/
def Obligations.SubtractionFlagsAreExact : Prop :=
  ∀ (a b : Byte) (cin : Bool),
    (subFlags a b cin).value = a - b - (if cin then 0 else 1) ∧
    ((subFlags a b cin).value.toNat = (a.toNat + (~~~b).toNat + cin.toNat) % 256) ∧
    ((subFlags a b cin).flags.c = true ↔ 255 < a.toNat + (~~~b).toNat + cin.toNat) ∧
    ((subFlags a b cin).flags.c = true ↔ b.toNat + (if cin then 0 else 1) ≤ a.toNat) ∧
    ((subFlags a b cin).flags.dc = true ↔ 15 < a.toNat % 16 + (~~~b).toNat % 16 + cin.toNat) ∧
    ((subFlags a b cin).flags.dc = true ↔ b.toNat % 16 + (if cin then 0 else 1) ≤ a.toNat % 16) ∧
    ((subFlags a b cin).flags.z = true ↔ (subFlags a b cin).value = 0) ∧
    ((subFlags a b cin).flags.n = true ↔ 128 ≤ (subFlags a b cin).value.toNat) ∧
    ((subFlags a b cin).flags.ov = true ↔
      (subFlags a b cin).value.toInt ≠ a.toInt - b.toInt - (if cin then 0 else 1)) ∧
    ((subFlags a b cin).flags.ov = true ↔
      a.getLsbD 7 ≠ b.getLsbD 7 ∧ (subFlags a b cin).value.getLsbD 7 ≠ a.getLsbD 7)

/-- 42_control.md R202: `DAW`'s algorithm on an unbounded integer; C is only ever set, the other flags stay; its word. -/
def Obligations.DawResult : Prop :=
  encode .daw = [0x0007] ∧ ∀ s : State,
    let t1 := if 9 < s.wreg.toNat % 16 ∨ s.flags.dc = true then s.wreg.toNat + 0x06 else s.wreg.toNat
    let t2 := if 9 < t1 / 16 ∨ s.flags.c = true then t1 + 0x60 else t1
    exec .daw s = .next { s with
      pc := evenAddr (s.pc + 2)
      wreg := BitVec.ofNat 8 (t2 % 256)
      flags := { s.flags with c := if 255 < t2 then true else s.flags.c } }

/-- After an addition of two packed-BCD bytes, `DAW` leaves their decimal sum in WREG and its carry in C (42_control.md R202's
purpose; the model's reading is log entry 19). -/
def Obligations.DawAfterAdditionIsDecimal : Prop :=
  ∀ (s : State) (x y : Nat) (cin : Bool), x < 100 → y < 100 →
    s.wreg = (addFlags (BitVec.ofNat 8 (x / 10 * 16 + x % 10)) (BitVec.ofNat 8 (y / 10 * 16 + y % 10)) cin).value →
    s.flags = (addFlags (BitVec.ofNat 8 (x / 10 * 16 + x % 10)) (BitVec.ofNat 8 (y / 10 * 16 + y % 10)) cin).flags →
    ∃ t, exec .daw s = .next t ∧
      t.wreg.toNat = (x + y + cin.toNat) % 100 / 10 * 16 + (x + y + cin.toNat) % 10 ∧
      (t.flags.c = true ↔ 100 ≤ x + y + cin.toNat)

/-! ### Byte-oriented and bit-oriented instructions

`readOperand (s.advance 2) f a = .ok ⟨l, v, u⟩` says that the operand can be resolved and read: `l` its location, `v` the byte,
`u` the state afterwards. -/

/-- 40_byte_oriented.md R142, R143, R150, R153, R161, R167 to R169. -/
def Obligations.AddSubtractByteInstructions : Prop :=
  ∀ (s : State) (f : Byte) (d : Dest) (a : Access) (l : Loc) (v : Byte) (u : State),
    readOperand (s.advance 2) f a = .ok ⟨l, v, u⟩ →
    PutsWithFlags d l u (addFlags v s.wreg false) (exec (.addwf f d a) s) ∧
    PutsWithFlags d l u (addFlags v s.wreg s.flags.c) (exec (.addwfc f d a) s) ∧
    PutsWithFlags d l u (subFlags v s.wreg true) (exec (.subwf f d a) s) ∧
    PutsWithFlags d l u (subFlags v s.wreg s.flags.c) (exec (.subwfb f d a) s) ∧
    PutsWithFlags d l u (subFlags s.wreg v s.flags.c) (exec (.subfwb f d a) s) ∧
    PutsWithFlags d l u (addFlags v 0x01 false) (exec (.incf f d a) s) ∧
    PutsWithFlags d l u (subFlags v 0x01 true) (exec (.decf f d a) s) ∧
    PutsWithFlags .f l u (subFlags 0x00 v true) (exec (.negf f a) s)

/-- 40_byte_oriented.md R144, R146, R156, R157, R172: Z and N from the result, C, DC and OV kept. -/
def Obligations.LogicAndMoveByteInstructions : Prop :=
  ∀ (s : State) (f : Byte) (d : Dest) (a : Access) (l : Loc) (v : Byte) (u : State),
    readOperand (s.advance 2) f a = .ok ⟨l, v, u⟩ →
    let zn (r : Byte) : AluResult :=
      ⟨r, { n := decide (128 ≤ r.toNat), ov := s.flags.ov, z := decide (r = 0), dc := s.flags.dc, c := s.flags.c }⟩
    PutsWithFlags d l u (zn (v &&& s.wreg)) (exec (.andwf f d a) s) ∧
    PutsWithFlags d l u (zn (~~~v)) (exec (.comf f d a) s) ∧
    PutsWithFlags d l u (zn (v ||| s.wreg)) (exec (.iorwf f d a) s) ∧
    PutsWithFlags d l u (zn v) (exec (.movf f d a) s) ∧
    PutsWithFlags d l u (zn (v ^^^ s.wreg)) (exec (.xorwf f d a) s)

/-- 40_byte_oriented.md R162 to R165, R170: rotations through C and not, and the nibble swap, as numbers. -/
def Obligations.RotateAndSwapByteInstructions : Prop :=
  ∀ (s : State) (f : Byte) (d : Dest) (a : Access) (l : Loc) (v : Byte) (u : State),
    readOperand (s.advance 2) f a = .ok ⟨l, v, u⟩ →
    let zn (r : Byte) (c : Bool) : AluResult :=
      ⟨r, { n := decide (128 ≤ r.toNat), ov := s.flags.ov, z := decide (r = 0), dc := s.flags.dc, c := c }⟩
    PutsWithFlags d l u (zn (BitVec.ofNat 8 (v.toNat * 2 + s.flags.c.toNat)) (decide (128 ≤ v.toNat)))
      (exec (.rlcf f d a) s) ∧
    PutsWithFlags d l u (zn (BitVec.ofNat 8 (v.toNat * 2 + v.toNat / 128)) s.flags.c) (exec (.rlncf f d a) s) ∧
    PutsWithFlags d l u (zn (BitVec.ofNat 8 (v.toNat / 2 + 128 * s.flags.c.toNat)) (decide (v.toNat % 2 = 1)))
      (exec (.rrcf f d a) s) ∧
    PutsWithFlags d l u (zn (BitVec.ofNat 8 (v.toNat / 2 + 128 * (v.toNat % 2))) s.flags.c) (exec (.rrncf f d a) s) ∧
    PutsByte d l u (BitVec.ofNat 8 (v.toNat % 16 * 16 + v.toNat / 16)) (exec (.swapf f d a) s)

/-- 40_byte_oriented.md R145, R159, R166: the operand is resolved and not read. -/
def Obligations.ClearSetAndStoreInstructions : Prop :=
  ∀ (s : State) (f : Byte) (a : Access) (l : Loc) (u : State), resolveOperand (s.advance 2) f a = .ok ⟨l, u⟩ →
    (l ≠ .reg .status → locWritable u 0x00 l = true →
      ∃ t, locWrite { u with flags := { s.flags with z := true } } l 0x00 = .ok t ∧ exec (.clrf f a) s = .next t) ∧
    (locWritable u s.wreg l = true → ∃ t, locWrite u l s.wreg = .ok t ∧ exec (.movwf f a) s = .next t) ∧
    (locWritable u 0xFF l = true → ∃ t, locWrite u l 0xFF = .ok t ∧ exec (.setf f a) s = .next t) ∧
    (l = .reg .intcon → exec (.setf f a) s = .fault .outOfScopeSfr)

/-- 40_byte_oriented.md R141, R147 to R149, R171; 41_bit_oriented.md R183, R184: nothing but pc changes beyond the read, and pc passes
over one more word when the condition holds, which the model's own bit `skipped` (log entry 35) remembers; the six
encodings. -/
def Obligations.CompareAndTestSkips : Prop :=
  (∀ (f : Byte) (b : BitVec 3) (a : Access),
    encode (.cpfseq f a) = [0b0110001#7 ++ a.bit ++ f] ∧ encode (.cpfsgt f a) = [0b0110010#7 ++ a.bit ++ f] ∧
    encode (.cpfslt f a) = [0b0110000#7 ++ a.bit ++ f] ∧ encode (.tstfsz f a) = [0b0110011#7 ++ a.bit ++ f] ∧
    encode (.btfsc f b a) = [0b1011#4 ++ b ++ a.bit ++ f] ∧ encode (.btfss f b a) = [0b1010#4 ++ b ++ a.bit ++ f]) ∧
  ∀ (s : State) (f : Byte) (a : Access) (l : Loc) (v : Byte) (u : State), s.pc.getLsbD 0 = false →
    readOperand (s.advance 2) f a = .ok ⟨l, v, u⟩ →
    exec (.cpfseq f a) s = .next (skipTo u s.pc (decide (v = s.wreg))) ∧
    exec (.cpfsgt f a) s = .next (skipTo u s.pc (decide (s.wreg.toNat < v.toNat))) ∧
    exec (.cpfslt f a) s = .next (skipTo u s.pc (decide (v.toNat < s.wreg.toNat))) ∧
    exec (.tstfsz f a) s = .next (skipTo u s.pc (decide (v = 0x00))) ∧
    ∀ b : BitVec 3,
      exec (.btfsc f b a) s = .next (skipTo u s.pc (decide (v.getLsbD b.toNat = false))) ∧
      exec (.btfss f b a) s = .next (skipTo u s.pc (decide (v.getLsbD b.toNat = true)))

/-- 40_byte_oriented.md R151, R152, R154, R155: count, put the result, skip on it; 20_memory.md R84: PCL as the destination stops. -/
def Obligations.CountAndSkipInstructions : Prop :=
  ∀ (s : State) (f : Byte) (d : Dest) (a : Access) (l : Loc) (v : Byte) (u : State), s.pc.getLsbD 0 = false →
    readOperand (s.advance 2) f a = .ok ⟨l, v, u⟩ →
    PutsByteThenSkips d l u (v - 1) s.pc (decide (v - 1 = 0)) (exec (.decfsz f d a) s) ∧
    PutsByteThenSkips d l u (v - 1) s.pc (decide (v - 1 ≠ 0)) (exec (.dcfsnz f d a) s) ∧
    PutsByteThenSkips d l u (v + 1) s.pc (decide (v + 1 = 0)) (exec (.incfsz f d a) s) ∧
    PutsByteThenSkips d l u (v + 1) s.pc (decide (v + 1 ≠ 0)) (exec (.infsnz f d a) s) ∧
    (d = .f → l = .reg .pcl →
      exec (.decfsz f d a) s = .fault .pclSkipDestination ∧ exec (.dcfsnz f d a) s = .fault .pclSkipDestination ∧
      exec (.incfsz f d a) s = .fault .pclSkipDestination ∧ exec (.infsnz f d a) s = .fault .pclSkipDestination)

/-- 40_byte_oriented.md R160, 43_literal.md R237: the exact unsigned product in PRODH:PRODL, no flag, WREG kept; the encodings. -/
def Obligations.MultiplyInstructions : Prop :=
  (∀ (f k : Byte) (a : Access),
    encode (.mulwf f a) = [0b0000001#7 ++ a.bit ++ f] ∧ encode (.mullw k) = [0b00001101#8 ++ k]) ∧
  (∀ (s : State) (f : Byte) (a : Access) (l : Loc) (v : Byte) (u : State),
    readOperand (s.advance 2) f a = .ok ⟨l, v, u⟩ →
    ∃ h lo : Byte, h.toNat * 256 + lo.toNat = s.wreg.toNat * v.toNat ∧
      exec (.mulwf f a) s = .next { u with prodh := h, prodl := lo }) ∧
  ∀ (s : State) (k : Byte), ∃ h lo : Byte, h.toNat * 256 + lo.toNat = s.wreg.toNat * k.toNat ∧
    exec (.mullw k) s = .next { s with pc := evenAddr (s.pc + 2), prodh := h, prodl := lo }

/-- 41_bit_oriented.md R181, R182, R185: bit `b` is cleared, set or toggled, the other seven stay, and the whole byte goes back; the
encodings. -/
def Obligations.BitWriteInstructions : Prop :=
  (∀ (f : Byte) (b : BitVec 3) (a : Access),
    encode (.bcf f b a) = [0b1001#4 ++ b ++ a.bit ++ f] ∧ encode (.bsf f b a) = [0b1000#4 ++ b ++ a.bit ++ f] ∧
    encode (.btg f b a) = [0b0111#4 ++ b ++ a.bit ++ f]) ∧
  ∀ (s : State) (f : Byte) (b : BitVec 3) (a : Access) (l : Loc) (v : Byte) (u : State),
    readOperand (s.advance 2) f a = .ok ⟨l, v, u⟩ →
    ∃ clear set toggle : Byte,
      (∀ k : Nat, k < 8 → clear.getLsbD k = (if k = b.toNat then false else v.getLsbD k) ∧
        set.getLsbD k = (if k = b.toNat then true else v.getLsbD k) ∧
        toggle.getLsbD k = (if k = b.toNat then !v.getLsbD k else v.getLsbD k)) ∧
      PutsByte .f l u clear (exec (.bcf f b a) s) ∧ PutsByte .f l u set (exec (.bsf f b a) s) ∧
      PutsByte .f l u toggle (exec (.btg f b a) s)

/-- 40_byte_oriented.md R158: `MOVFF` resolves and reads the source, then resolves the destination and writes it; PCL and TOSx as
the destination stop (20_memory.md R84, R85). -/
def Obligations.MoveFileToFile : Prop :=
  ∀ (s : State) (fs fd : DataAddr) (x : Resolved) (v : Byte) (u : State) (z : Resolved),
    resolve (s.advance 4) fs = .ok x → locRead .two x.st x.loc = .ok (v, u) → resolve u fd = .ok z →
    (moveForbidden z.loc = false → locWritable z.st v z.loc = true →
      ∃ t, locWrite z.st z.loc v = .ok t ∧ exec (.movff fs fd) s = .next t) ∧
    ((z.loc = .reg .pcl ∨ z.loc = .reg .tosu ∨ z.loc = .reg .tosh ∨ z.loc = .reg .tosl) →
      exec (.movff fs fd) s = .fault .pclOrTosDestination)

/-- 45_extended.md R265, R266: the source is at FSR2 plus an offset, where a virtual register reads 0 and moves no pointer; the
destination of `MOVSF` is any address, that of `MOVSS` at FSR2 plus an offset, where a virtual register is not written. -/
def Obligations.MoveIndexed : Prop :=
  ∀ (s : State) (zs : BitVec 7) (l : Loc) (v : Byte) (u : State), s.cfg.xinst = true →
    resolveIndexed (s.advance 4) zs = .ok l → locRead .two (s.advance 4) l = .ok (v, u) →
    (isVirtual (s.fsr2 + zs.setWidth 12) = true → v = 0x00 ∧ u = s.advance 4) ∧
    (∀ (fd : DataAddr) (z : Resolved), resolve u fd = .ok z → moveForbidden z.loc = false →
      locWritable z.st v z.loc = true → ∃ t, locWrite z.st z.loc v = .ok t ∧ exec (.movsf zs fd) s = .next t) ∧
    (∀ (fd : DataAddr) (z : Resolved), resolve u fd = .ok z → moveForbidden z.loc = true →
      exec (.movsf zs fd) s = .fault .pclOrTosDestination) ∧
    (∀ (zd : BitVec 7) (m : Loc), resolveIndexed (s.advance 4) zd = .ok m → moveForbidden m = false →
      locWritable u v m = true → ∃ t, locWrite u m v = .ok t ∧ exec (.movss zs zd) s = .next t) ∧
    (∀ zd : BitVec 7, isVirtual (s.fsr2 + zd.setWidth 12) = true → exec (.movss zs zd) s = .next u) ∧
    (∀ (zd : BitVec 7) (m : Loc), resolveIndexed (s.advance 4) zd = .ok m → moveForbidden m = true →
      exec (.movss zs zd) s = .fault .pclOrTosDestination)

/-- 10_state.md R51: STATUS as the destination of a flag-writing instruction. In the admitted model it is
`StatusDestination`; otherwise (log entry 6) each of the eighteen completes with its computed flags, those it does not
write kept, and the result byte is not written, so `CLRF STATUS` sets Z only. -/
def Obligations.StatusAsFlagDestination : Prop :=
  ∀ (s : State) (f : Byte) (a : Access) (v : Byte) (u : State),
    readOperand (s.advance 2) f a = .ok ⟨.reg .status, v, u⟩ →
    (s.cfg.admitted = true → ∀ i : Instr, i.fileOperand = some (f, a) → i.storesToFile = true →
      i.flagsWritten ≠ {} → exec i s = .fault .statusDestination) ∧
    (s.cfg.admitted = false →
      let stands (fl : Flags) (i : Instr) : Prop := exec i s = .next { u with flags := fl }
      let zn (r : Byte) (c : Bool) : Flags :=
        { n := decide (128 ≤ r.toNat), ov := s.flags.ov, z := decide (r = 0), dc := s.flags.dc, c := c }
      (stands (addFlags v s.wreg false).flags (.addwf f .f a) ∧
        stands (addFlags v s.wreg s.flags.c).flags (.addwfc f .f a) ∧
        stands (subFlags v s.wreg true).flags (.subwf f .f a) ∧
        stands (subFlags v s.wreg s.flags.c).flags (.subwfb f .f a) ∧
        stands (subFlags s.wreg v s.flags.c).flags (.subfwb f .f a) ∧
        stands (addFlags v 0x01 false).flags (.incf f .f a) ∧ stands (subFlags v 0x01 true).flags (.decf f .f a) ∧
        stands (subFlags 0x00 v true).flags (.negf f a)) ∧
      (stands (zn (v &&& s.wreg) s.flags.c) (.andwf f .f a) ∧ stands (zn (~~~v) s.flags.c) (.comf f .f a) ∧
        stands (zn (v ||| s.wreg) s.flags.c) (.iorwf f .f a) ∧ stands (zn v s.flags.c) (.movf f .f a) ∧
        stands (zn (v ^^^ s.wreg) s.flags.c) (.xorwf f .f a)) ∧
      (stands (zn (BitVec.ofNat 8 (v.toNat * 2 + s.flags.c.toNat)) (decide (128 ≤ v.toNat))) (.rlcf f .f a) ∧
        stands (zn (BitVec.ofNat 8 (v.toNat * 2 + v.toNat / 128)) s.flags.c) (.rlncf f .f a) ∧
        stands (zn (BitVec.ofNat 8 (v.toNat / 2 + 128 * s.flags.c.toNat)) (decide (v.toNat % 2 = 1))) (.rrcf f .f a) ∧
        stands (zn (BitVec.ofNat 8 (v.toNat / 2 + 128 * (v.toNat % 2))) s.flags.c) (.rrncf f .f a)) ∧
      stands { s.flags with z := true } (.clrf f a))

/-! ### Control instructions -/

/-- 42_control.md R191 to R199: the branch target counts words from the next instruction, modulo 2^21; the encodings. -/
def Obligations.RelativeBranches : Prop :=
  (∀ (n : BitVec 8) (m : BitVec 11),
    encode (.bc n) = [0b11100010#8 ++ n] ∧ encode (.bnc n) = [0b11100011#8 ++ n] ∧
    encode (.bn n) = [0b11100110#8 ++ n] ∧ encode (.bnn n) = [0b11100111#8 ++ n] ∧
    encode (.bov n) = [0b11100100#8 ++ n] ∧ encode (.bnov n) = [0b11100101#8 ++ n] ∧
    encode (.bz n) = [0b11100000#8 ++ n] ∧ encode (.bnz n) = [0b11100001#8 ++ n] ∧
    encode (.bra m) = [0b11010#5 ++ m]) ∧
  ∀ (s : State) (n : BitVec 8) (m : BitVec 11), s.pc.getLsbD 0 = false →
    let goes (b : Bool) : State :=
      { s with pc := if b then s.pc + 2 + 2 * n.signExtend 21 else s.pc + 2 }
    exec (.bc n) s = .next (goes s.flags.c) ∧ exec (.bnc n) s = .next (goes (!s.flags.c)) ∧
    exec (.bn n) s = .next (goes s.flags.n) ∧ exec (.bnn n) s = .next (goes (!s.flags.n)) ∧
    exec (.bov n) s = .next (goes s.flags.ov) ∧ exec (.bnov n) s = .next (goes (!s.flags.ov)) ∧
    exec (.bz n) s = .next (goes s.flags.z) ∧ exec (.bnz n) s = .next (goes (!s.flags.z)) ∧
    exec (.bra m) s = .next { s with pc := s.pc + 2 + 2 * m.signExtend 21 }

/-- 42_control.md R200, R207, R208, 45_extended.md R264: with room on the return stack, what each pushes and where it goes; STKFUL
is set by the push that fills the stack (10_state.md R38), in the admitted model too, where R39's `Push` does not name the bit
(log entry 18, the model's reading). -/
def Obligations.CallsPushReturnAddress : Prop :=
  ∀ s : State, s.pc.getLsbD 0 = false → roomToPush s = true →
    let pushed (v pc : ProgAddr) : State :=
      { s with
        pc := pc
        sp := s.sp + 1
        stack := s.stack.setIfInBounds s.sp.toNat v
        stkful := s.stkful || decide (s.sp + 1 = s.cfg.stackDepth) }
    (∀ k : BitVec 20, exec (.call k false) s = .next (pushed (s.pc + 4) (k ++ 0#1))) ∧
    (∀ k : BitVec 20, exec (.call k true) s =
      .next { pushed (s.pc + 4) (k ++ 0#1) with shadow := ⟨s.wreg, s.flags, s.bsr⟩ }) ∧
    (∀ n : BitVec 11, exec (.rcall n) s = .next (pushed (s.pc + 2) (s.pc + 2 + 2 * n.signExtend 21))) ∧
    exec .push s = .next (pushed (s.pc + 2) (s.pc + 2)) ∧
    (s.cfg.xinst = true →
      exec .callw s = .next (pushed (s.pc + 2) ((s.pclatu ++ s.pclath ++ s.wreg) &&& 0x1FFFFE)))

/-- 42_control.md R206, R210 to R212, 45_extended.md R263, R269: with an entry on the return stack, `v` the top one. -/
def Obligations.ReturnsPopReturnAddress : Prop :=
  ∀ (s : State) (v : ProgAddr), s.sp ≠ 0 → s.stack[s.sp.toNat - 1]? = some v →
    let back : State := { s with pc := v &&& 0x1FFFFE, sp := s.sp - 1 }
    let restored : State := { back with wreg := s.shadow.ws, flags := s.shadow.statuss, bsr := s.shadow.bsrs }
    let enabled (t : State) : State :=
      if s.rcon.ipen = false then { t with gieh := true }
      else if s.gieh = false then { t with gieh := true } else { t with giel := true }
    exec .pop s = .next { s with pc := evenAddr (s.pc + 2), sp := s.sp - 1 } ∧
    exec (.ret false) s = .next back ∧ exec (.ret true) s = .next restored ∧
    exec (.retfie false) s = .next (enabled back) ∧ exec (.retfie true) s = .next (enabled restored) ∧
    (∀ k : Byte, exec (.retlw k) s = .next { back with wreg := k }) ∧
    (s.cfg.xinst = true → ∀ k : BitVec 6,
      exec (.addulnk k) s = .next { back with fsr2 := s.fsr2 + k.setWidth 12 } ∧
      exec (.subulnk k) s = .next { back with fsr2 := s.fsr2 - k.setWidth 12 })

/-- 10_state.md R39: in the admitted model a push on a full stack and a pop of an empty one stop. -/
def Obligations.StackLimitsStopAdmittedModel : Prop :=
  ∀ (i : Instr) (s : State), s.cfg.admitted = true → (i.isExtended = true → s.cfg.xinst = true) →
    (i.pushes = true → s.cfg.stackDepth ≤ s.sp → exec i s = .fault .stackOverflow) ∧
    (i.pops = true → s.sp = 0 → exec i s = .fault .stackUnderflow)

/-- 10_state.md R40 (outside the admitted model; log entry 5): with `STVREN = 1` the push that fills or finds the stack full,
and the pop of an empty stack, reset the device with STKFUL or STKUNF set; with `STVREN = 0` a push on a full stack
leaves SP and every entry, and a pop of an empty one, `POP` included, leaves SP at 0 and loads pc with 0. -/
def Obligations.StackLimitsOfTheHardware : Prop :=
  ∀ (i : Instr) (s : State), s.cfg.admitted = false → (i.isExtended = true → s.cfg.xinst = true) →
    (i.pushes = true → s.cfg.stvren = true → s.cfg.stackDepth.toNat ≤ s.sp.toNat + 1 →
      ∃ t, exec i s = .next t ∧ t.pc = 0 ∧ t.sp = 0 ∧ t.stkful = true ∧ t.stkunf = s.stkunf ∧ t.gieh = false ∧
        t.wreg = s.wreg ∧ t.flags = s.flags ∧ t.ram = s.ram ∧ t.rcon.ri = s.rcon.ri) ∧
    (i.pushes = true → s.cfg.stvren = false → s.cfg.stackDepth ≤ s.sp →
      ∃ t, exec i s = .next t ∧ t.sp = s.sp ∧ t.stack = s.stack ∧ t.stkful = true) ∧
    (i.pops = true → s.cfg.stvren = true → s.sp = 0 →
      ∃ t, exec i s = .next t ∧ t.pc = 0 ∧ t.sp = 0 ∧ t.stkunf = true ∧ t.stkful = s.stkful ∧ t.gieh = false ∧
        t.flags = s.flags ∧ t.ram = s.ram ∧ t.rcon.ri = s.rcon.ri) ∧
    (i.pops = true → s.cfg.stvren = false → s.sp = 0 →
      ∃ t, exec i s = .next t ∧ t.sp = 0 ∧ t.stack = s.stack ∧ t.stkunf = true ∧ t.pc = 0)

/-- 10_state.md R37, R41, 42_control.md R190: a call with room and the return of the same kind from its target come back to the
instruction after the call, with the stack as deep as before and its entries unchanged, and, with `s = 1`, WREG, the
flags and BSR of the call whatever the subroutine did to them. -/
def Obligations.CallThenReturnComesBack : Prop :=
  ∀ (s t : State) (k : BitVec 20) (fast : Bool) (w : Byte) (fl : Flags) (b : BitVec 4), s.pc.getLsbD 0 = false →
    roomToPush s = true → exec (.call k fast) s = .next t →
    ∃ u, exec (.ret fast) { t with wreg := w, flags := fl, bsr := b } = .next u ∧ u.pc = s.pc + 4 ∧ u.sp = s.sp ∧
      (∀ j, j < s.sp.toNat → u.stack[j]? = s.stack[j]?) ∧
      u.wreg = (if fast then s.wreg else w) ∧ u.flags = (if fast then s.flags else fl) ∧
      u.bsr = (if fast then s.bsr else b)

/-- 42_control.md R201, R203, R204, R205, R213, with their encodings. -/
def Obligations.NopGotoWatchdogAndSleep : Prop :=
  (encode .nop = [0x0000] ∧ encode .clrwdt = [0x0004] ∧ encode .sleep = [0x0003] ∧
    (∀ x : BitVec 12, encode (.nopSecond x) = [0b1111#4 ++ x]) ∧
    ∀ k : BitVec 20, encode (.goto k) = [0b11101111#8 ++ k.extractLsb' 0 8, 0b1111#4 ++ k.extractLsb' 8 12]) ∧
  ∀ s : State,
    exec .nop s = .next { s with pc := evenAddr (s.pc + 2) } ∧
    (∀ x : BitVec 12, exec (.nopSecond x) s = .next { s with pc := evenAddr (s.pc + 2) }) ∧
    (∀ k : BitVec 20, exec (.goto k) s = .next { s with pc := k ++ 0#1 }) ∧
    exec .clrwdt s = .next { s with
      pc := evenAddr (s.pc + 2)
      wdtCounter := 0
      wdtPostscaler := 0
      rcon := { s.rcon with timeOut := true, powerDown := true } } ∧
    exec .sleep s = .next { s with
      pc := evenAddr (s.pc + 2)
      wdtCounter := 0
      wdtPostscaler := 0
      rcon := { s.rcon with timeOut := true, powerDown := false }
      runState := .sleeping }

/-- 42_control.md R209, 70_reset_and_hazards.md R311: the `RESET` instruction, and the two resets of the same column, register
by register; what is not named is unchanged; TOS then reads 0. The model's own fields: no interrupt is requested, the sources'
enables being reset with their registers (log entry 12), and the bit `skipped` is clear (log entry 35). -/
def Obligations.ResetInstructionAndItsColumn : Prop :=
  encode .reset = [0x00FF] ∧ ∀ s : State,
    let column (rcon : Rcon) : State :=
      { s with
        pc := 0x000000
        sp := 0
        pclatu := 0
        pclath := 0
        tblptr := 0
        tablat := 0
        bsr := 0
        fsr0 := s.fsr0 &&& 0x0FF
        fsr1 := s.fsr1 &&& 0x0FF
        fsr2 := s.fsr2 &&& 0x0FF
        gieh := false
        giel := false
        rcon := rcon
        hold := []
        wdtCounter := 0
        wdtPostscaler := 0
        runState := .running
        requests := {}
        skipped := false }
    exec .reset s = .next (column { s.rcon with ipen := false, ri := false }) ∧
    deviceReset .masterClear s = column { s.rcon with ipen := false } ∧
    deviceReset .watchdog s = column { s.rcon with ipen := false, timeOut := false } ∧
    ∀ rcon : Rcon, (column rcon).tos = 0

/-! ### Literal and table instructions -/

/-- 43_literal.md R231 to R233, R235, R236, R239, R240, with their encodings; the words R235 reserves are `ReservedEncoding`
by `ReservedAndBadWordsStop`. -/
def Obligations.LiteralInstructions : Prop :=
  (∀ (k : Byte) (b : BitVec 4),
    encode (.addlw k) = [0b00001111#8 ++ k] ∧ encode (.sublw k) = [0b00001000#8 ++ k] ∧
    encode (.andlw k) = [0b00001011#8 ++ k] ∧ encode (.iorlw k) = [0b00001001#8 ++ k] ∧
    encode (.xorlw k) = [0b00001010#8 ++ k] ∧ encode (.movlw k) = [0b00001110#8 ++ k] ∧
    encode (.movlb b) = [0b000000010000#12 ++ b]) ∧
  ∀ (s : State) (k : Byte),
    let puts (r : AluResult) : State := { s with pc := evenAddr (s.pc + 2), wreg := r.value, flags := r.flags }
    let zn (r : Byte) : AluResult :=
      ⟨r, { n := decide (128 ≤ r.toNat), ov := s.flags.ov, z := decide (r = 0), dc := s.flags.dc, c := s.flags.c }⟩
    exec (.addlw k) s = .next (puts (addFlags s.wreg k false)) ∧
    exec (.sublw k) s = .next (puts (subFlags k s.wreg true)) ∧
    exec (.andlw k) s = .next (puts (zn (s.wreg &&& k))) ∧
    exec (.iorlw k) s = .next (puts (zn (s.wreg ||| k))) ∧
    exec (.xorlw k) s = .next (puts (zn (s.wreg ^^^ k))) ∧
    exec (.movlw k) s = .next { s with pc := evenAddr (s.pc + 2), wreg := k } ∧
    ∀ b : BitVec 4, exec (.movlb b) s = .next { s with pc := evenAddr (s.pc + 2), bsr := b }

/-- 43_literal.md R234, 45_extended.md R262, R268: loading, adding to and subtracting from an FSR, modulo 4096; ff = 11 of `LFSR` is
reserved; the encodings. -/
def Obligations.PointerInstructions : Prop :=
  (∀ (f : BitVec 2) (k : BitVec 12) (j : BitVec 6),
    encode (.lfsr f k) = [0b1110111000#10 ++ f ++ k.extractLsb' 8 4, 0b11110000#8 ++ k.extractLsb' 0 8] ∧
    encode (.addfsr f j) = [0b11101000#8 ++ f ++ j] ∧ encode (.subfsr f j) = [0b11101001#8 ++ f ++ j]) ∧
  ∀ (s : State) (k : BitVec 12) (j : BitVec 6),
    exec (.lfsr 0 k) s = .next { s with pc := evenAddr (s.pc + 4), fsr0 := k } ∧
    exec (.lfsr 1 k) s = .next { s with pc := evenAddr (s.pc + 4), fsr1 := k } ∧
    exec (.lfsr 2 k) s = .next { s with pc := evenAddr (s.pc + 4), fsr2 := k } ∧
    exec (.lfsr 3 k) s = .fault (.reservedEncoding (firstWord (.lfsr 3 k))) ∧
    (s.cfg.xinst = true →
      exec (.addfsr 0 j) s = .next { s with pc := evenAddr (s.pc + 2), fsr0 := s.fsr0 + j.setWidth 12 } ∧
      exec (.addfsr 1 j) s = .next { s with pc := evenAddr (s.pc + 2), fsr1 := s.fsr1 + j.setWidth 12 } ∧
      exec (.addfsr 2 j) s = .next { s with pc := evenAddr (s.pc + 2), fsr2 := s.fsr2 + j.setWidth 12 } ∧
      exec (.subfsr 0 j) s = .next { s with pc := evenAddr (s.pc + 2), fsr0 := s.fsr0 - j.setWidth 12 } ∧
      exec (.subfsr 1 j) s = .next { s with pc := evenAddr (s.pc + 2), fsr1 := s.fsr1 - j.setWidth 12 } ∧
      exec (.subfsr 2 j) s = .next { s with pc := evenAddr (s.pc + 2), fsr2 := s.fsr2 - j.setWidth 12 }) ∧
    (s.cfg.xinst = false → ∀ f : BitVec 2, f ≠ 3 →
      exec (.addfsr f j) s = .fault (.extendedDisabled (firstWord (.addfsr f j))) ∧
      exec (.subfsr f j) s = .fault (.extendedDisabled (firstWord (.subfsr f j))))

/-- 45_extended.md R267: the store at FSR2, then the decrement; a virtual register under FSR2 stops. -/
def Obligations.PushLiteral : Prop :=
  ∀ (s : State) (k : Byte), s.cfg.xinst = true →
    (∀ l, isVirtual s.fsr2 = false → resolveDirect s s.fsr2 = .ok l → locWritable s k l = true →
      ∃ t, locWrite (s.advance 2) l k = .ok t ∧ exec (.pushl k) s = .next { t with fsr2 := t.fsr2 - 1 }) ∧
    (isVirtual s.fsr2 = true → exec (.pushl k) s = .fault .virtualViaFsr2)

/-- 44_table.md R246 to R250: one program byte to TABLAT, the pointer moved before or after; TBLPTR[21] = 1 at the access, or an
address that cannot be read, stops; the encodings. -/
def Obligations.TableReads : Prop :=
  (encode .tblrd = [0x0008] ∧ encode .tblrdPostInc = [0x0009] ∧ encode .tblrdPostDec = [0x000A] ∧
    encode .tblrdPreInc = [0x000B]) ∧
  ∀ s : State,
    let reads (p after : TblAddr) (o : Result) : Prop :=
      (p.getLsbD 21 = true → o = .fault .tableOutsideProgramSpace) ∧
      (∀ e, p.getLsbD 21 = false → progByte s (p.setWidth 21) = .error e → o = .fault e) ∧
      ∀ v, p.getLsbD 21 = false → progByte s (p.setWidth 21) = .ok v →
        o = .next { s with pc := evenAddr (s.pc + 2), tablat := v, tblptr := after }
    reads s.tblptr s.tblptr (exec .tblrd s) ∧
    reads s.tblptr (s.tblptr + 1) (exec .tblrdPostInc s) ∧
    reads s.tblptr (s.tblptr - 1) (exec .tblrdPostDec s) ∧
    reads (s.tblptr + 1) (s.tblptr + 1) (exec .tblrdPreInc s)

/-- 44_table.md R251 to R254: TABLAT to the holding latch the pointer selects, program memory untouched; TBLPTR[21] = 1 at the
access stops; the encodings. -/
def Obligations.TableWrites : Prop :=
  (encode .tblwt = [0x000C] ∧ encode .tblwtPostInc = [0x000D] ∧ encode .tblwtPostDec = [0x000E] ∧
    encode .tblwtPreInc = [0x000F]) ∧
  ∀ s : State,
    let writes (p after : TblAddr) (o : Result) : Prop :=
      (p.getLsbD 21 = true → o = .fault .tableOutsideProgramSpace) ∧
      (p.getLsbD 21 = false → ∃ t, o = .next t ∧ t.hold.read (p.toNat % s.cfg.holdBytes) = some s.tablat ∧
        (∀ j, j ≠ p.toNat % s.cfg.holdBytes → t.hold.read j = s.hold.read j) ∧
        t = { s with pc := evenAddr (s.pc + 2), hold := t.hold, tblptr := after })
    writes s.tblptr s.tblptr (exec .tblwt s) ∧
    writes s.tblptr (s.tblptr + 1) (exec .tblwtPostInc s) ∧
    writes s.tblptr (s.tblptr - 1) (exec .tblwtPostDec s) ∧
    writes (s.tblptr + 1) (s.tblptr + 1) (exec .tblwtPreInc s)

/-- 20_memory.md R71, R74 (log entry 9): a program byte is the image's; outside the image the admitted model stops, and
otherwise implemented flash reads 0xFF and unimplemented program memory 0x00. -/
def Obligations.ProgramBytes : Prop :=
  ∀ (s : State) (a : ProgAddr),
    (∀ v, s.prog.read a.toNat = some v → progByte s a = .ok v) ∧
    (s.prog.read a.toNat = none → s.cfg.admitted = true → progByte s a = .error (.outsideProgramImage a)) ∧
    (s.prog.read a.toNat = none → s.cfg.admitted = false → a.toNat < s.cfg.progBytes → progByte s a = .ok 0xFF) ∧
    (s.prog.read a.toNat = none → s.cfg.admitted = false → s.cfg.progBytes ≤ a.toNat → progByte s a = .ok 0x00)

/-! ### Data memory -/

/-- 20_memory.md R76 to R79: the effective address as a number; an operand that indexed literal offset puts on a virtual
register stops. -/
def Obligations.EffectiveAddress : Prop :=
  ∀ (s : State) (f : Byte),
    (dataAddr s f .banked).toNat = s.bsr.toNat * 256 + f.toNat ∧
    (dataAddr s f .access).toNat =
      (if s.cfg.xinst = true ∧ f.toNat ≤ 0x5F then (s.fsr2.toNat + f.toNat) % 4096
      else if f.toNat < s.cfg.accessSplit.toNat then f.toNat else 0xF00 + f.toNat) ∧
    (s.cfg.xinst = true → f.toNat ≤ 0x5F → isVirtual (s.fsr2 + f.setWidth 12) = true →
      ∀ i : Instr, i.fileOperand = some (f, .access) → exec i s = .fault .virtualViaFsr2)

/-- 10_state.md R50: the core registers' addresses; 20_memory.md R82: the fifteen virtual ones. Nothing else has an entry. -/
def Obligations.CoreRegisterAddresses : Prop :=
  ∀ (a : DataAddr) (e : CoreEntry), coreEntry a = some e ↔
    (a = 0xFFF ∧ e = .core .tosu) ∨ (a = 0xFFE ∧ e = .core .tosh) ∨ (a = 0xFFD ∧ e = .core .tosl) ∨
    (a = 0xFFC ∧ e = .core .stkptr) ∨ (a = 0xFFB ∧ e = .core .pclatu) ∨ (a = 0xFFA ∧ e = .core .pclath) ∨
    (a = 0xFF9 ∧ e = .core .pcl) ∨ (a = 0xFF8 ∧ e = .core .tblptru) ∨ (a = 0xFF7 ∧ e = .core .tblptrh) ∨
    (a = 0xFF6 ∧ e = .core .tblptrl) ∨ (a = 0xFF5 ∧ e = .core .tablat) ∨ (a = 0xFF4 ∧ e = .core .prodh) ∨
    (a = 0xFF3 ∧ e = .core .prodl) ∨ (a = 0xFF2 ∧ e = .core .intcon) ∨
    (a = 0xFEF ∧ e = .virtual .indf .f0) ∨ (a = 0xFEE ∧ e = .virtual .postinc .f0) ∨
    (a = 0xFED ∧ e = .virtual .postdec .f0) ∨ (a = 0xFEC ∧ e = .virtual .preinc .f0) ∨
    (a = 0xFEB ∧ e = .virtual .plusw .f0) ∨ (a = 0xFEA ∧ e = .core (.fsrh .f0)) ∨ (a = 0xFE9 ∧ e = .core (.fsrl .f0)) ∨
    (a = 0xFE8 ∧ e = .core .wreg) ∨
    (a = 0xFE7 ∧ e = .virtual .indf .f1) ∨ (a = 0xFE6 ∧ e = .virtual .postinc .f1) ∨
    (a = 0xFE5 ∧ e = .virtual .postdec .f1) ∨ (a = 0xFE4 ∧ e = .virtual .preinc .f1) ∨
    (a = 0xFE3 ∧ e = .virtual .plusw .f1) ∨ (a = 0xFE2 ∧ e = .core (.fsrh .f1)) ∨ (a = 0xFE1 ∧ e = .core (.fsrl .f1)) ∨
    (a = 0xFE0 ∧ e = .core .bsr) ∨
    (a = 0xFDF ∧ e = .virtual .indf .f2) ∨ (a = 0xFDE ∧ e = .virtual .postinc .f2) ∨
    (a = 0xFDD ∧ e = .virtual .postdec .f2) ∨ (a = 0xFDC ∧ e = .virtual .preinc .f2) ∨
    (a = 0xFDB ∧ e = .virtual .plusw .f2) ∨ (a = 0xFDA ∧ e = .core (.fsrh .f2)) ∨ (a = 0xFD9 ∧ e = .core (.fsrl .f2)) ∨
    (a = 0xFD8 ∧ e = .core .status) ∨ (a = 0xFD0 ∧ e = .core .rcon)

/-- 20_memory.md R81, R86, R87: an operand can be read exactly if it is in scope and its location readable; the address is
resolved once, and the location read is the one written later. What is in scope and readable is the model's: outside the
admitted model unimplemented memory is in scope (log entries 8 and 28) and unwritten RAM readable (log entry 3), and every
register holds a value (log entry 2), where R87 and 10_state.md R52 raise faults. -/
def Obligations.OperandsInScopeCanBeRead : Prop :=
  ∀ (s : State) (f : Byte) (a : Access),
    ((∃ r, resolveOperand s f a = .ok r) ↔ operandInScope s f a = true) ∧
    ∀ r, resolveOperand s f a = .ok r →
      ((∃ v u, readOperand s f a = .ok ⟨r.loc, v, u⟩) ↔ locReadable .one r.st r.loc = true) ∧
      ∀ l v u, readOperand s f a = .ok ⟨l, v, u⟩ → l = r.loc ∧ locRead .one r.st r.loc = .ok (v, u)

/-- 20_memory.md R82, `Indirect(kind, n)`: where each of the five kinds of indirect access reaches, and what its resolution
leaves in its FSR. -/
def Obligations.IndirectAccessTargets : Prop :=
  ∀ (s : State) (a : DataAddr) (n : FsrNum),
    (coreEntry a = some (.virtual .indf n) → ReachesThrough s a n (s.fsr n) (s.fsr n)) ∧
    (coreEntry a = some (.virtual .postinc n) → ReachesThrough s a n (s.fsr n) (s.fsr n + 1)) ∧
    (coreEntry a = some (.virtual .postdec n) → ReachesThrough s a n (s.fsr n) (s.fsr n - 1)) ∧
    (coreEntry a = some (.virtual .preinc n) → ReachesThrough s a n (s.fsr n + 1) (s.fsr n + 1)) ∧
    (coreEntry a = some (.virtual .plusw n) →
      ReachesThrough s a n (BitVec.ofInt 12 ((s.fsr n).toInt + s.wreg.toInt)) (s.fsr n))

/-- 20_memory.md R81, R87 (log entries 8 and 28): where an address that is no virtual register leads: its core register, RAM
below `RAM_BYTES`; a peripheral register's address stops, and unimplemented memory stops in the admitted model and otherwise
is `Null`, which reads 0 and ignores writes (R83). -/
def Obligations.DirectAddresses : Prop :=
  ∀ (s : State) (a : DataAddr), isVirtual a = false →
    (∀ r, coreEntry a = some (.core r) → resolve s a = .ok ⟨.reg r, s⟩) ∧
    (coreEntry a = none → a.toNat < s.cfg.ramBytes → resolve s a = .ok ⟨.ram a, s⟩) ∧
    (coreEntry a = none → s.cfg.ramBytes ≤ a.toNat → s.cfg.sfrBase ≤ a → resolve s a = .error (.outOfScopeData a)) ∧
    (coreEntry a = none → s.cfg.ramBytes ≤ a.toNat → a < s.cfg.sfrBase →
      (s.cfg.admitted = true → resolve s a = .error (.outOfScopeData a)) ∧
      (s.cfg.admitted = false → resolve s a = .ok ⟨.null, s⟩)) ∧
    ∀ ws v, locRead ws s .null = .ok (0x00, s) ∧ locWrite s .null v = .ok s

/-- 20_memory.md R85, R93, 10_state.md R52 (log entry 3): a RAM byte reads as it was last written, a write leaves every other
byte, and a byte nothing has written stops in the admitted model and reads a free value otherwise. -/
def Obligations.RamReadsWhatWasWritten : Prop :=
  ∀ (s t : State) (a : DataAddr) (v : Byte) (ws : Words), locWrite s (.ram a) v = .ok t →
    locRead ws t (.ram a) = .ok (v, t) ∧
    (∀ b : DataAddr, b ≠ a → ramByte t b = ramByte s b) ∧
    (∀ b : DataAddr, s.ram.read b.toNat = none → s.cfg.admitted = true → ramByte s b = .error .unwrittenRead) ∧
    ∀ b : DataAddr, s.ram.read b.toNat = none → s.cfg.admitted = false → ∃ w, ramByte s b = .ok w

/-- 20_memory.md R85, 10_state.md R22, R31, R38, R45, R46: what a core register reads as after a byte is written to it; RCON keeps
TO and PD, INTCON keeps only bits 7:6 (log entry 23) and stops if any of bits 5:3 is set, TOSx is entry SP. Every other core
register reads as before, so a write of one byte of an FSR, of TBLPTR or of TOS keeps the others; only a write of STKPTR moves
TOS to another entry. A write of TOSx leaves the other entries, and a write of any other register leaves all. -/
def Obligations.CoreRegisterLayouts : Prop :=
  ∀ (s t : State) (v : Byte) (n : FsrNum),
    let same (r : Sfr) (keeps : Byte) : Prop := sfrWrite s r v = .ok t → sfrByte t r = v &&& keeps
    let isTos (r : Sfr) : Prop := r = .tosu ∨ r = .tosh ∨ r = .tosl
    (same .wreg 0xFF ∧ same .prodh 0xFF ∧ same .prodl 0xFF ∧ same .tablat 0xFF ∧ same .pclath 0xFF ∧
      same (.fsrl n) 0xFF ∧ same .tblptrh 0xFF ∧ same .tblptrl 0xFF) ∧
    (same .bsr 0x0F ∧ same (.fsrh n) 0x0F ∧ same .pclatu 0x1F ∧ same .tblptru 0x3F ∧ same .status 0x1F) ∧
    (same .intcon 0xC0 ∧ (v &&& 0x38 ≠ 0 ↔ sfrWrite s .intcon v = .error .outOfScopeSfr)) ∧
    (sfrWrite s .rcon v = .ok t → sfrByte t .rcon = (v &&& 0xD3) ||| (sfrByte s .rcon &&& 0x0C)) ∧
    (s.sp ≠ 0 → same .tosu 0x1F ∧ same .tosh 0xFF ∧ same .tosl 0xFF) ∧
    (∀ r q : Sfr, sfrWrite s r v = .ok t → q ≠ r → (r = .stkptr → ¬ isTos q) → sfrByte t q = sfrByte s q) ∧
    (∀ r : Sfr, sfrWrite s r v = .ok t →
      (∀ k : Nat, k + 1 ≠ s.sp.toNat → t.stack[k]? = s.stack[k]?) ∧ (¬ isTos r → t.stack = s.stack))

/-- 10_state.md R38, 20_memory.md R85: TOSx and STKPTR read entry SP and the pointer with its two status bits; a write of STKPTR,
or of TOSx while SP = 0, stops in the admitted model; otherwise (log entry 7) STKPTR takes SP and can only clear the
status bits, and TOSx at SP = 0 ignores the write. -/
def Obligations.StackRegisters : Prop :=
  ∀ (s : State) (v : Byte),
    (sfrByte s .stkptr).toNat = s.stkful.toNat * 128 + s.stkunf.toNat * 64 + s.sp.toNat ∧
    (sfrByte s .tosu).toNat * 65536 + (sfrByte s .tosh).toNat * 256 + (sfrByte s .tosl).toNat =
      (if s.sp = 0 then 0 else (s.stack[s.sp.toNat - 1]?.getD 0).toNat) ∧
    (s.cfg.admitted = true →
      sfrWrite s .stkptr v = .error .stackRegisterWrite ∧
      (s.sp = 0 → sfrWrite s .tosu v = .error .stackRegisterWrite ∧ sfrWrite s .tosh v = .error .stackRegisterWrite ∧
        sfrWrite s .tosl v = .error .stackRegisterWrite)) ∧
    (s.cfg.admitted = false →
      sfrWrite s .stkptr v = .ok { s with
        sp := BitVec.ofNat 5 (v.toNat % 32)
        stkful := s.stkful && decide (128 ≤ v.toNat)
        stkunf := s.stkunf && decide (64 ≤ v.toNat % 128) } ∧
      (s.sp = 0 → sfrWrite s .tosu v = .ok s ∧ sfrWrite s .tosh v = .ok s ∧ sfrWrite s .tosl v = .ok s))

/-- 10_state.md R35, 20_memory.md R84: `MOVWF PCL` jumps through the latches without updating them; `MOVF PCL, w` reads the next
instruction's low byte and puts its upper bytes in the latches; PCL read inside a two-word instruction stops in the
admitted model, and otherwise (log entry 10) gives the low byte of `pc0 + 2` or `pc0 + 4`. -/
def Obligations.ProgramCounterAsRegister : Prop :=
  ∀ s : State, s.pc.getLsbD 0 = false → s.bsr = 15 →
    exec (.movwf 0xF9 .banked) s = .next { s with pc := (s.pclatu ++ s.pclath ++ s.wreg) &&& 0x1FFFFE } ∧
    (let v : Byte := (s.pc + 2).extractLsb' 0 8
     exec (.movf 0xF9 .w .banked) s = .next { s with
       pc := s.pc + 2
       pclath := (s.pc + 2).extractLsb' 8 8
       pclatu := (s.pc + 2).extractLsb' 16 5
       wreg := v
       flags := { s.flags with z := decide (v = 0), n := decide (128 ≤ v.toNat) } }) ∧
    (s.cfg.admitted = true → ∀ fd, exec (.movff 0xFF9 fd) s = .fault .pclInTwoWord) ∧
    (s.cfg.admitted = false → ∃ v u, locRead .two (s.advance 4) (.reg .pcl) = .ok (v, u) ∧
      (v = (s.pc + 2).extractLsb' 0 8 ∨ v = (s.pc + 4).extractLsb' 0 8))

/-! ### What an instruction leaves unchanged

Each for every instruction, whenever it answers a next state. `storeLoc i s` is the location the instruction stores to,
computed as its meaning computes it. -/

/-- 10_state.md R20, R22, R54: WREG and the flags. -/
def Obligations.FrameOfWregAndFlags : Prop :=
  ∀ (i : Instr) (s t : State), exec i s = .next t → resetsDevice i s = false → i.restoresShadow = false →
    (i.writesWreg = false → storeLoc i s ≠ some (.reg .wreg) → t.wreg = s.wreg) ∧
    (storeLoc i s ≠ some (.reg .status) →
      (i.flagsWritten.n = false → t.flags.n = s.flags.n) ∧ (i.flagsWritten.ov = false → t.flags.ov = s.flags.ov) ∧
      (i.flagsWritten.z = false → t.flags.z = s.flags.z) ∧ (i.flagsWritten.dc = false → t.flags.dc = s.flags.dc) ∧
      (i.flagsWritten.c = false → t.flags.c = s.flags.c))

/-- 10_state.md R31 to R35, R42, R43, 20_memory.md R82: BSR, each FSR (by its number `m`), the product registers, the table
pointer and latch, and the latches of pc. -/
def Obligations.FrameOfPointersAndDataRegisters : Prop :=
  ∀ (i : Instr) (s t : State), exec i s = .next t → resetsDevice i s = false →
    ((∀ k, i ≠ .movlb k) → i.restoresShadow = false → storeLoc i s ≠ some (.reg .bsr) → t.bsr = s.bsr) ∧
    (∀ m n, fsrNum m = some n → i.writesFsr m = false → (∀ a ∈ namedAddrs i s, movesFsr n a = false) →
      storeLoc i s ≠ some (.reg (.fsrh n)) → storeLoc i s ≠ some (.reg (.fsrl n)) → t.fsr n = s.fsr n) ∧
    ((∀ f a, i ≠ .mulwf f a) → (∀ k, i ≠ .mullw k) →
      (storeLoc i s ≠ some (.reg .prodh) → t.prodh = s.prodh) ∧ (storeLoc i s ≠ some (.reg .prodl) → t.prodl = s.prodl)) ∧
    (i.isTableOp = false → storeLoc i s ≠ some (.reg .tblptru) → storeLoc i s ≠ some (.reg .tblptrh) →
      storeLoc i s ≠ some (.reg .tblptrl) → t.tblptr = s.tblptr) ∧
    (i ≠ .tblrd → i ≠ .tblrdPostInc → i ≠ .tblrdPostDec → i ≠ .tblrdPreInc → storeLoc i s ≠ some (.reg .tablat) →
      t.tablat = s.tablat) ∧
    (sourceLoc i s ≠ some (.reg .pcl) →
      (storeLoc i s ≠ some (.reg .pclath) → t.pclath = s.pclath) ∧
      (storeLoc i s ≠ some (.reg .pclatu) → t.pclatu = s.pclatu))

/-- 10_state.md R37 to R41: the return stack, its pointer and status bits, and the shadows. -/
def Obligations.FrameOfStackAndShadows : Prop :=
  ∀ (i : Instr) (s t : State), exec i s = .next t → resetsDevice i s = false →
    (i.pushes = false → storeLoc i s ≠ some (.reg .tosu) → storeLoc i s ≠ some (.reg .tosh) →
      storeLoc i s ≠ some (.reg .tosl) → t.stack = s.stack) ∧
    (i.pushes = true → ∀ k, k ≠ s.sp.toNat → t.stack[k]? = s.stack[k]?) ∧
    (storeLoc i s ≠ some (.reg .stkptr) →
      (i.pushes = false → i.pops = false → t.sp = s.sp) ∧ (i.pushes = false → t.stkful = s.stkful) ∧
      (i.pops = false → t.stkunf = s.stkunf)) ∧
    (i.savesShadow = false → t.shadow = s.shadow)

/-- 10_state.md R44 to R49: the interrupt enables, RCON bit by bit (no store changes TO or PD), the holding latches, the
watchdog, the run state, and what nothing changes: program memory, the configuration and, which is the model's choice, the
environment's moves (log entry 11) and the interrupt requests that stand, which a store to INTCON does not change either (log
entries 12 and 23). `skipped` is the model's own bit (log entry 35). -/
def Obligations.FrameOfSystemState : Prop :=
  ∀ (i : Instr) (s t : State), exec i s = .next t → resetsDevice i s = false →
    ((∀ b, i ≠ .retfie b) → storeLoc i s ≠ some (.reg .intcon) → t.gieh = s.gieh ∧ t.giel = s.giel) ∧
    (storeLoc i s ≠ some (.reg .rcon) → t.rcon.ipen = s.rcon.ipen ∧ t.rcon.sboren = s.rcon.sboren ∧
      t.rcon.ri = s.rcon.ri ∧ t.rcon.por = s.rcon.por ∧ t.rcon.bor = s.rcon.bor) ∧
    (i ≠ .clrwdt → i ≠ .sleep → t.rcon.timeOut = s.rcon.timeOut ∧ t.rcon.powerDown = s.rcon.powerDown ∧
      t.wdtCounter = s.wdtCounter ∧ t.wdtPostscaler = s.wdtPostscaler) ∧
    (i ≠ .tblwt → i ≠ .tblwtPostInc → i ≠ .tblwtPostDec → i ≠ .tblwtPreInc → t.hold = s.hold) ∧
    (i ≠ .sleep → t.runState = s.runState) ∧ (i.maySkip = false → t.skipped = s.skipped) ∧
    t.requests = s.requests ∧ t.prog = s.prog ∧ t.cfg = s.cfg ∧ t.env = s.env

/-- 20_memory.md R21's RAM: every byte of data memory but the one the instruction stores to, and every byte for an instruction
that stores to none, resets included. -/
def Obligations.FrameOfDataMemory : Prop :=
  ∀ (i : Instr) (s t : State), exec i s = .next t →
    ∀ a : Nat, (∀ b : DataAddr, storeLoc i s = some (.ram b) → b.toNat ≠ a) → t.ram.read a = s.ram.read a

/-! ### Interrupts, sleep, the watchdog and resets -/

/-- 60_exceptions.md R283, R285, R287, R289: which gates a request passes and which entry it leads to; of the requests that stand
once the boundary's moves are made (log entries 11 and 12) one of high priority is entered before one of low, and one whose gate is
closed is not entered and goes on standing. The entry, with room on the stack: STKFUL set by the push that fills it, in the
admitted model too (log entry 18); without room (10_state.md R39, R40; log entries 5 and 31): `StackOverflow` in the admitted
model, else the stack's reset, which leaves no request (log entry 12), or, with `STVREN = 0`, an entry whose return address
is lost. -/
def Obligations.InterruptEntry : Prop :=
  (∀ (s : State) (src : Source),
    gateOpen s src = (if s.rcon.ipen = true then s.gieh && (decide (src.priority = .high) || s.giel)
      else s.gieh && (!src.peripheral || s.giel)) ∧
    entryPriority s src = (if s.rcon.ipen = true then src.priority else .high)) ∧
  (∀ s : State,
    let passes (p : Priority) : Prop :=
      ∃ src, s.requests.has src = true ∧ gateOpen s src = true ∧ entryPriority s src = p
    (interruptDue s = some .high ↔ passes .high) ∧ (interruptDue s = some .low ↔ passes .low ∧ ¬ passes .high)) ∧
  ∀ (s : State) (p : Priority), s.runState = .running → resetDue s = none → insideSkip s.arrive = false →
    interruptDue s.arrive = some p →
    let t : State := { s.arrive with skipped := false }
    let entered (u : State) : State :=
      match p with
      | .high => { u with shadow := ⟨s.wreg, s.flags, s.bsr⟩, gieh := false, pc := 0x000008 }
      | .low => { u with shadow := ⟨s.wreg, s.flags, s.bsr⟩, giel := false, pc := 0x000018 }
    (roomToPush s = true →
      step s = .next (entered { t with
        sp := s.sp + 1
        stack := s.stack.setIfInBounds s.sp.toNat s.pc
        stkful := s.stkful || decide (s.sp + 1 = s.cfg.stackDepth) })) ∧
    (s.cfg.admitted = true → s.cfg.stackDepth ≤ s.sp → step s = .fault .stackOverflow) ∧
    (pushResets s = true →
      ∃ u, step s = .next u ∧ u.pc = 0x000000 ∧ u.sp = 0 ∧ u.stkful = true ∧ u.gieh = false ∧ u.giel = false ∧
        u.requests = {} ∧ u.shadow = s.shadow ∧ u.wreg = s.wreg ∧ u.flags = s.flags ∧ u.ram = s.ram ∧
        u.rcon.ri = s.rcon.ri) ∧
    (s.cfg.admitted = false → s.cfg.stvren = false → s.cfg.stackDepth ≤ s.sp →
      step s = .next (entered { t with stkful := true }))

/-- 42_control.md R210, 60_exceptions.md R287, R290: a handler's `RETFIE 1` gives back pc, WREG, the flags, BSR, the stack and both
enable bits as the interrupt found them, whatever the handler left in WREG, the flags and BSR. -/
def Obligations.InterruptThenReturnRestores : Prop :=
  ∀ (s t : State) (p : Priority) (w : Byte) (fl : Flags) (b : BitVec 4),
    s.runState = .running → resetDue s = none → insideSkip s.arrive = false → interruptDue s.arrive = some p →
    s.pc.getLsbD 0 = false → roomToPush s = true → step s = .next t →
    ∃ u, exec (.retfie true) { t with wreg := w, flags := fl, bsr := b } = .next u ∧ u.pc = s.pc ∧ u.wreg = s.wreg ∧
      u.flags = s.flags ∧ u.bsr = s.bsr ∧ u.sp = s.sp ∧ (∀ j, j < s.sp.toNat → u.stack[j]? = s.stack[j]?) ∧
      u.gieh = s.gieh ∧ u.giel = s.giel

/-- 10_state.md R49, 60_exceptions.md R296, at a boundary without a reset: a sleeping core that nothing wakes stays as it is but for the
environment's moves (log entry 13). A time-out of the watchdog wakes it with TO = 0 and does not reset it, against a phrase of
42_control.md R213 (log entry 38), and an interrupt request whatever the
gates hold; either way it executes the instruction at pc, and only the boundary after that one can enter the interrupt
(log entry 12). -/
def Obligations.SleepAndWake : Prop :=
  ∀ s : State, s.runState = .sleeping → .powerOn ∉ s.movesNow → .masterClear ∉ s.movesNow →
    (s.cfg.wdten = true → .wdtTimeout ∈ s.movesNow →
      turn s = .instruction { s.arrive with
        runState := .running, skipped := false, rcon := { s.rcon with timeOut := false } }) ∧
    (wdtExpires s = false → s.arrive.requests ≠ {} →
      turn s = .instruction { s.arrive with runState := .running, skipped := false }) ∧
    (wdtExpires s = false → s.arrive.requests = {} → step s = .next s.arrive) ∧
    (s.env = [] → s.requests = {} → step s = .next s)

/-- 60_exceptions.md R297 (log entries 12 and 14): a time-out of the watchdog while the core runs resets the device with TO = 0 if
at least one instruction has run since the watchdog was cleared; else, and with the watchdog off, there is no reset and the
core goes on as its requests say. -/
def Obligations.WatchdogTimeoutResets : Prop :=
  ∀ s : State, s.runState = .running → .powerOn ∉ s.movesNow → .masterClear ∉ s.movesNow →
    (s.cfg.wdten = false ∨ s.wdtCounter = 0 → resetDue s = none ∧
      (interruptDue s.arrive = none → turn s = .instruction { s.arrive with skipped := false })) ∧
    (.wdtTimeout ∈ s.movesNow → s.cfg.wdten = true → s.wdtCounter ≠ 0 →
      ∃ t, step s = .next t ∧ t.pc = 0x000000 ∧ t.rcon.timeOut = false ∧ t.rcon.ri = s.rcon.ri ∧ t.ram = s.ram ∧
        t.wreg = s.wreg ∧ t.sp = 0 ∧ t.env = s.env.tail)

/-- 70_reset_and_hazards.md R310, R311, R313, 60_exceptions.md R289(a): the reset pin and a power-on, running or asleep, whatever
interrupt is requested at the same boundary, with no request left (log entry 12); of the two together it is the power-on
(log entry 11). After a power-on the
state is that of `State.reset` with the program image and configuration as programmed, and with it the values the model
chose: 0 in the registers that R53 gives none (log entry 2), POR = BOR = 0 (log entry 21), SBOREN = 0 (log entry 22). -/
def Obligations.ExternalResets : Prop :=
  ∀ s : State,
    (.masterClear ∈ s.movesNow → .powerOn ∉ s.movesNow →
      ∃ t, step s = .next t ∧ t.pc = 0x000000 ∧ t.runState = .running ∧ t.sp = 0 ∧ t.gieh = false ∧ t.giel = false ∧
        t.requests = {} ∧ t.rcon = { s.rcon with ipen := false } ∧ t.ram = s.ram ∧ t.wreg = s.wreg ∧
        t.flags = s.flags ∧ t.stkful = s.stkful ∧ t.stkunf = s.stkunf ∧ t.env = s.env.tail) ∧
    (.powerOn ∈ s.movesNow →
      step s = .next { State.reset with prog := s.prog, cfg := s.cfg, env := s.env.tail })
end

