-- ==== Sys2Proof/Laws/Flags.lean ====
section
/-! SUPPORT. Laws of the flag functions: the sign bit as a number, and STATUS read back as the flags written. -/

namespace Sys2Proof.Machine

/-- Bit 7 says that the byte is at least 128. -/
theorem signBit_eq (v : Byte) : signBit v = decide (128 ≤ v.toNat) := by
  have h : BitVec.msb v = signBit v := rfl
  rw [← h, BitVec.msb_eq_decide]

/-- A byte as a signed number. -/
theorem toInt_eq (v : Byte) : v.toInt = if 128 ≤ v.toNat then (v.toNat : Int) - 256 else v.toNat := by
  rw [BitVec.toInt_eq_toNat_cond]
  split <;> split <;> omega

theorem addFlags_value (a b : Byte) (cin : Bool) :
    (addFlags a b cin).value.toNat = (a.toNat + b.toNat + cin.toNat) % 256 := by
  simp [addFlags]

theorem subFlags_value (a b : Byte) (cin : Bool) :
    (subFlags a b cin).value.toNat = (a.toNat + (255 - b.toNat) + cin.toNat) % 256 := by
  simp [subFlags, BitVec.toNat_not]

theorem znFlags_n (r : Byte) (f : Flags) : (znFlags r f).flags.n = decide (128 ≤ r.toNat) := signBit_eq r

/-- STATUS written and read back: bits 4:0 are kept, bits 7:5 read 0 (R22). -/
theorem Flags.toByte_ofByte (v : Byte) : (Flags.ofByte v).toByte = v &&& 0x1F := by
  revert v
  decide

/-- The flags are what STATUS reads as. -/
@[simp] theorem Flags.ofByte_toByte (f : Flags) : Flags.ofByte f.toByte = f := by
  obtain ⟨n, ov, z, dc, c⟩ := f
  cases n <;> cases ov <;> cases z <;> cases dc <;> cases c <;> rfl

end Sys2Proof.Machine
end

