-- ==== Sys2Proof/Machine/Assembly.lean ====
section
/-! DEFINITION. An assembly statement as the instruction it stands for (30_encoding.md R127 to R129, 00_scope.md R12): the order and the
defaults of its operands, and their values as fields. The machine does not use it: it begins at the words (R14). -/

namespace Sys2Proof.Machine

/-- A statement by its form (R127): the mnemonic, and the operands as the source writes them, `none` for one left out. -/
inductive Statement where
  /-- No operand; the table operations are single tokens. -/
  | plain (mnemonic : String)
  /-- `f, d, a`. -/
  | fileDest (mnemonic : String) (f : Nat) (d a : Option Nat)
  /-- `f, a`. -/
  | file (mnemonic : String) (f : Nat) (a : Option Nat)
  /-- `f, b, a`. -/
  | fileBit (mnemonic : String) (f b : Nat) (a : Option Nat)
  /-- `n`, a target address, or `k`, a literal or, for `GOTO`, a target address. -/
  | value (mnemonic : String) (k : Nat)
  /-- `k, s` of `CALL`. -/
  | call (k : Nat) (s : Option Nat)
  /-- `s` of `RETFIE` and `RETURN`. -/
  | ret (mnemonic : String) (s : Option Nat)
  /-- `f, k` of `LFSR`, `ADDFSR`, `SUBFSR`; `fs, fd` of `MOVFF`; `zs, fd` of `MOVSF`; `zs, zd` of `MOVSS`. -/
  | pair (mnemonic : String) (x y : Nat)
deriving DecidableEq, Repr

/-! ### Operand values to fields (R128, R129) -/

/-- A value that must fit its field. -/
def literalField (w k : Nat) : Option (BitVec w) := if k < 2 ^ w then some (BitVec.ofNat w k) else none

/-- `d`: left out it is 1. -/
def destField : Option Nat → Option Dest
  | some 0 => some .w
  | some 1 | none => some .f
  | some _ => none

/-- `a`: left out it is 0 (90_conflicts.md C8). -/
def accessField : Option Nat → Option Access
  | some 0 | none => some .access
  | some 1 => some .banked
  | some _ => none

/-- `s`: left out it is 0. -/
def fastField : Option Nat → Option Bool
  | some 0 | none => some false
  | some 1 => some true
  | some _ => none

/-- `f`: the field, or a 12-bit address of which the low byte is kept. -/
def fileField (f : Nat) : Option Byte := if f < 4096 then some (BitVec.ofNat 8 f) else none

/-- `f` of the FSR instructions. -/
def fsrField (f : Nat) : Option (BitVec 2) := if f < 3 then some (BitVec.ofNat 2 f) else none

/-- `k` of `CALL` and `GOTO`: an even byte address below 2^21, in words. -/
def targetField (k : Nat) : Option (BitVec 20) := if k % 2 = 0 ∧ k < 2 ^ 21 then some (BitVec.ofNat 20 (k / 2)) else none

/-- `n`: the distance in words from the next instruction to the target, which must fit `w` signed bits. -/
def branchField (w : Nat) (pc0 : ProgAddr) (target : Nat) : Option (BitVec w) :=
  let bytes : Int := (target : Int) - (pc0.toNat + 2 : Nat)
  let words : Int := bytes / 2
  let half : Nat := 2 ^ (w - 1)
  if bytes % 2 = 0 ∧ -(half : Int) ≤ words ∧ words < half then some (BitVec.ofInt w words) else none

/-! ### The mnemonics of each form -/

def plainMnemonics : List (String × Instr) :=
  [("CLRWDT", .clrwdt), ("DAW", .daw), ("NOP", .nop), ("POP", .pop), ("PUSH", .push), ("RESET", .reset), ("SLEEP", .sleep),
    ("CALLW", .callw), ("TBLRD*", .tblrd), ("TBLRD*+", .tblrdPostInc), ("TBLRD*-", .tblrdPostDec),
    ("TBLRD+*", .tblrdPreInc), ("TBLWT*", .tblwt), ("TBLWT*+", .tblwtPostInc), ("TBLWT*-", .tblwtPostDec),
    ("TBLWT+*", .tblwtPreInc)]

def fileDestMnemonics : List (String × (Byte → Dest → Access → Instr)) :=
  [("ADDWF", .addwf), ("ADDWFC", .addwfc), ("ANDWF", .andwf), ("COMF", .comf), ("DECF", .decf), ("DECFSZ", .decfsz),
    ("DCFSNZ", .dcfsnz), ("INCF", .incf), ("INCFSZ", .incfsz), ("INFSNZ", .infsnz), ("IORWF", .iorwf), ("MOVF", .movf),
    ("RLCF", .rlcf), ("RLNCF", .rlncf), ("RRCF", .rrcf), ("RRNCF", .rrncf), ("SUBFWB", .subfwb), ("SUBWF", .subwf),
    ("SUBWFB", .subwfb), ("SWAPF", .swapf), ("XORWF", .xorwf)]

def fileMnemonics : List (String × (Byte → Access → Instr)) :=
  [("CLRF", .clrf), ("CPFSEQ", .cpfseq), ("CPFSGT", .cpfsgt), ("CPFSLT", .cpfslt), ("MOVWF", .movwf), ("MULWF", .mulwf),
    ("NEGF", .negf), ("SETF", .setf), ("TSTFSZ", .tstfsz)]

def fileBitMnemonics : List (String × (Byte → BitVec 3 → Access → Instr)) :=
  [("BCF", .bcf), ("BSF", .bsf), ("BTFSC", .btfsc), ("BTFSS", .btfss), ("BTG", .btg)]

def branchMnemonics : List (String × (BitVec 8 → Instr)) :=
  [("BC", .bc), ("BN", .bn), ("BNC", .bnc), ("BNN", .bnn), ("BNOV", .bnov), ("BNZ", .bnz), ("BOV", .bov), ("BZ", .bz)]

def longBranchMnemonics : List (String × (BitVec 11 → Instr)) := [("BRA", .bra), ("RCALL", .rcall)]

def literalMnemonics : List (String × (Byte → Instr)) :=
  [("ADDLW", .addlw), ("ANDLW", .andlw), ("IORLW", .iorlw), ("MOVLW", .movlw), ("MULLW", .mullw), ("RETLW", .retlw),
    ("SUBLW", .sublw), ("XORLW", .xorlw), ("PUSHL", .pushl)]

def unlinkMnemonics : List (String × (BitVec 6 → Instr)) := [("ADDULNK", .addulnk), ("SUBULNK", .subulnk)]

def returnMnemonics : List (String × (Bool → Instr)) := [("RETFIE", .retfie), ("RETURN", .ret)]

def fsrMnemonics : List (String × (BitVec 2 → BitVec 6 → Instr)) := [("ADDFSR", .addfsr), ("SUBFSR", .subfsr)]

/-! ### Assembling -/

/-- The instruction of a statement with one numeric operand, at `pc0`. -/
def assembleValue (pc0 : ProgAddr) (m : String) (k : Nat) : Option Instr :=
  match branchMnemonics.lookup m, longBranchMnemonics.lookup m, literalMnemonics.lookup m, unlinkMnemonics.lookup m with
  | some op, _, _, _ => (branchField 8 pc0 k).map op
  | _, some op, _, _ => (branchField 11 pc0 k).map op
  | _, _, some op, _ => (literalField 8 k).map op
  | _, _, _, some op => (literalField 6 k).map op
  | none, none, none, none =>
    if m = "MOVLB" then (literalField 4 k).map .movlb
    else if m = "GOTO" then (targetField k).map .goto
    else none

/-- The instruction of a statement with two numeric operands. -/
def assemblePair (m : String) (x y : Nat) : Option Instr :=
  match fsrMnemonics.lookup m with
  | some op => do return op (← fsrField x) (← literalField 6 y)
  | none =>
    if m = "LFSR" then (do return .lfsr (← fsrField x) (← literalField 12 y))
    else if m = "MOVFF" then (do return .movff (← literalField 12 x) (← literalField 12 y))
    else if m = "MOVSF" then (do return .movsf (← literalField 7 x) (← literalField 12 y))
    else if m = "MOVSS" then (do return .movss (← literalField 7 x) (← literalField 7 y))
    else none

/-- The instruction a statement at `pc0` stands for; none if the statement is ill-formed (R127 to R129). `NEGF` takes a `d` that is
left out or 1 (90_conflicts.md C4, 93_implementation_defined.md U24). -/
def assemble (pc0 : ProgAddr) : Statement → Option Instr
  | .plain m => plainMnemonics.lookup m
  | .fileDest m f d a =>
    if m = "NEGF" then
      if d = none ∨ d = some 1 then (do return .negf (← fileField f) (← accessField a)) else none
    else do return (← fileDestMnemonics.lookup m) (← fileField f) (← destField d) (← accessField a)
  | .file m f a => do return (← fileMnemonics.lookup m) (← fileField f) (← accessField a)
  | .fileBit m f b a => do return (← fileBitMnemonics.lookup m) (← fileField f) (← literalField 3 b) (← accessField a)
  | .value m k => assembleValue pc0 m k
  | .call k s => do return .call (← targetField k) (← fastField s)
  | .ret m s => do return (← returnMnemonics.lookup m) (← fastField s)
  | .pair m x y => assemblePair m x y

end Sys2Proof.Machine
end

