-- ==== Sys2Proof/Tests/Slice0.lean ====
section
/-! SUPPORT. Tests. Words are written out from the encodings of 30_encoding.md R113 to R118 and expected results are taken from
95_test_vectors.md or worked out by hand from the rule named; none is the model's own answer. -/

namespace Sys2Proof.Tests

open Sys2Proof Sys2Proof.Machine

/-! ### Helpers -/

/-- A machine about to execute these words at 0x0100, in the admitted model. -/
def machine (ws : List Word) : State :=
  { State.reset with
    pc := 0x0100
    prog := State.reset.prog.writeProg 0x0100 (ws.flatMap bytesOfWord)
    cfg := { admitted := true } }

/-- The same with `XINST = 1`. -/
def extended (ws : List Word) : State := { machine ws with cfg := { admitted := true, xinst := true } }

/-- The same outside the admitted model (log entry 4). -/
def hardware (ws : List Word) : State := { machine ws with cfg := {} }

/-- What one step leaves, if it answers a next state. -/
def after {α : Type} (s : State) (look : State → α) : Option α :=
  match step s with
  | .next t => some (look t)
  | _ => none

/-- The fault one step is, if it is one. -/
def stop (s : State) : Option Fault :=
  match step s with
  | .fault e => some e
  | _ => none

def isNext (r : Result) : Bool :=
  match r with
  | .next _ => true
  | _ => false

theorem next_of {r : Result} (h : isNext r = true) : ∃ t, r = .next t := by
  cases r with
  | next t => exact ⟨t, rfl⟩
  | fault _ => cases h
  | refused _ => cases h

/-! ### Well-formedness: one ill-formed term for each check -/

theorem test_wf_lfsr_refused : (Instr.lfsr 3 0x000).wellFormed = false := by decide
theorem test_wf_addfsr_refused : (Instr.addfsr 3 0x00).wellFormed = false := by decide
theorem test_wf_subfsr_refused : (Instr.subfsr 3 0x3F).wellFormed = false := by decide
theorem test_wf_accepts : (Instr.lfsr 2 0xFFF).wellFormed = true ∧ (Instr.addwf 0xFF .f .banked).wellFormed = true := by decide

/-! ### Decoding: every constructor, from a word written out from its encoding (R113 to R118) -/

theorem test_decode_addwf : decodeWords false 0b0010010000100000 0 = .ok (.addwf 0x20 .w .access) := by decide
theorem test_decode_addwfc : decodeWords false 0b0010001100000010 0 = .ok (.addwfc 0x02 .f .banked) := by decide
theorem test_decode_andwf : decodeWords false 0b0001011010100001 0 = .ok (.andwf 0xA1 .f .access) := by decide
theorem test_decode_clrf : decodeWords false 0b0110101100100000 0 = .ok (.clrf 0x20 .banked) := by decide
theorem test_decode_comf : decodeWords false 0b0001110100010011 0 = .ok (.comf 0x13 .w .banked) := by decide
theorem test_decode_cpfseq : decodeWords false 0b0110001000110000 0 = .ok (.cpfseq 0x30 .access) := by decide
theorem test_decode_cpfsgt : decodeWords false 0b0110010100110000 0 = .ok (.cpfsgt 0x30 .banked) := by decide
theorem test_decode_cpfslt : decodeWords false 0b0110000010000000 0 = .ok (.cpfslt 0x80 .access) := by decide
theorem test_decode_decf : decodeWords false 0b0000011000100000 0 = .ok (.decf 0x20 .f .access) := by decide
theorem test_decode_decfsz : decodeWords false 0b0010110100100000 0 = .ok (.decfsz 0x20 .w .banked) := by decide
theorem test_decode_dcfsnz : decodeWords false 0b0100111000100000 0 = .ok (.dcfsnz 0x20 .f .access) := by decide
theorem test_decode_incf : decodeWords false 0b0010100101111111 0 = .ok (.incf 0x7F .w .banked) := by decide
theorem test_decode_incfsz : decodeWords false 0b0011111000100000 0 = .ok (.incfsz 0x20 .f .access) := by decide
theorem test_decode_infsnz : decodeWords false 0b0100100100100000 0 = .ok (.infsnz 0x20 .w .banked) := by decide
theorem test_decode_iorwf : decodeWords false 0b0001001000010011 0 = .ok (.iorwf 0x13 .f .access) := by decide
theorem test_decode_movf : decodeWords false 0b0101000111101000 0 = .ok (.movf 0xE8 .w .banked) := by decide
theorem test_decode_movff : decodeWords false 0b1100000000100101 0b1111000100110010 = .ok (.movff 0x025 0x132) := by decide
theorem test_decode_movwf : decodeWords false 0b0110111100100001 0 = .ok (.movwf 0x21 .banked) := by decide
theorem test_decode_mulwf : decodeWords false 0b0000001010110101 0 = .ok (.mulwf 0xB5 .access) := by decide
theorem test_decode_negf : decodeWords false 0b0110110100111010 0 = .ok (.negf 0x3A .banked) := by decide
theorem test_decode_rlcf : decodeWords false 0b0011011011100110 0 = .ok (.rlcf 0xE6 .f .access) := by decide
theorem test_decode_rlncf : decodeWords false 0b0100010110101011 0 = .ok (.rlncf 0xAB .w .banked) := by decide
theorem test_decode_rrcf : decodeWords false 0b0011001000000001 0 = .ok (.rrcf 0x01 .f .access) := by decide
theorem test_decode_rrncf : decodeWords false 0b0100000111010111 0 = .ok (.rrncf 0xD7 .w .banked) := by decide
theorem test_decode_setf : decodeWords false 0b0110100001011010 0 = .ok (.setf 0x5A .access) := by decide
theorem test_decode_subfwb : decodeWords false 0b0101011100000011 0 = .ok (.subfwb 0x03 .f .banked) := by decide
theorem test_decode_subwf : decodeWords false 0b0101110000000010 0 = .ok (.subwf 0x02 .w .access) := by decide
theorem test_decode_subwfb : decodeWords false 0b0101101100011001 0 = .ok (.subwfb 0x19 .f .banked) := by decide
theorem test_decode_swapf : decodeWords false 0b0011100001010011 0 = .ok (.swapf 0x53 .w .access) := by decide
theorem test_decode_tstfsz : decodeWords false 0b0110011100000001 0 = .ok (.tstfsz 0x01 .banked) := by decide
theorem test_decode_xorwf : decodeWords false 0b0001101010101111 0 = .ok (.xorwf 0xAF .f .access) := by decide
theorem test_decode_bcf : decodeWords false 0b1001111000100000 0 = .ok (.bcf 0x20 7 .access) := by decide
theorem test_decode_bsf : decodeWords false 0b1000010100100000 0 = .ok (.bsf 0x20 2 .banked) := by decide
theorem test_decode_btfsc : decodeWords false 0b1011001000100000 0 = .ok (.btfsc 0x20 1 .access) := by decide
theorem test_decode_btfss : decodeWords false 0b1010010111011000 0 = .ok (.btfss 0xD8 2 .banked) := by decide
theorem test_decode_btg : decodeWords false 0b0111100000100000 0 = .ok (.btg 0x20 4 .access) := by decide
theorem test_decode_bc : decodeWords false 0b1110001011111011 0 = .ok (.bc (-5)) := by decide
theorem test_decode_bn : decodeWords false 0b1110011000000101 0 = .ok (.bn 5) := by decide
theorem test_decode_bnc : decodeWords false 0b1110001110000000 0 = .ok (.bnc (-128)) := by decide
theorem test_decode_bnn : decodeWords false 0b1110011101111111 0 = .ok (.bnn 127) := by decide
theorem test_decode_bnov : decodeWords false 0b1110010100000101 0 = .ok (.bnov 5) := by decide
theorem test_decode_bnz : decodeWords false 0b1110000111111111 0 = .ok (.bnz (-1)) := by decide
theorem test_decode_bov : decodeWords false 0b1110010000000101 0 = .ok (.bov 5) := by decide
theorem test_decode_bra : decodeWords false 0b1101010000000000 0 = .ok (.bra (-1024)) := by decide
theorem test_decode_bz : decodeWords false 0b1110000011111110 0 = .ok (.bz (-2)) := by decide
theorem test_decode_call : decodeWords false 0b1110110100110100 0b1111000000010010 = .ok (.call 0x01234 true) := by decide
theorem test_decode_clrwdt : decodeWords false 0b0000000000000100 0 = .ok (.clrwdt) := by decide
theorem test_decode_daw : decodeWords false 0b0000000000000111 0 = .ok (.daw) := by decide
theorem test_decode_goto : decodeWords false 0b1110111111111111 0b1111111111111110 = .ok (.goto 0xFFEFF) := by decide
theorem test_decode_nop : decodeWords false 0b0000000000000000 0 = .ok (.nop) := by decide
theorem test_decode_nop_second : decodeWords false 0b1111000100100011 0 = .ok (.nopSecond 0x123) := by decide
theorem test_decode_pop : decodeWords false 0b0000000000000110 0 = .ok (.pop) := by decide
theorem test_decode_push : decodeWords false 0b0000000000000101 0 = .ok (.push) := by decide
theorem test_decode_rcall : decodeWords false 0b1101111111111110 0 = .ok (.rcall (-2)) := by decide
theorem test_decode_reset : decodeWords false 0b0000000011111111 0 = .ok (.reset) := by decide
theorem test_decode_retfie : decodeWords false 0b0000000000010001 0 = .ok (.retfie true) := by decide
theorem test_decode_retlw : decodeWords false 0b0000110000000111 0 = .ok (.retlw 0x07) := by decide
theorem test_decode_return : decodeWords false 0b0000000000010010 0 = .ok (.ret false) := by decide
theorem test_decode_sleep : decodeWords false 0b0000000000000011 0 = .ok (.sleep) := by decide
theorem test_decode_addlw : decodeWords false 0b0000111100010101 0 = .ok (.addlw 0x15) := by decide
theorem test_decode_andlw : decodeWords false 0b0000101101011111 0 = .ok (.andlw 0x5F) := by decide
theorem test_decode_iorlw : decodeWords false 0b0000100100110101 0 = .ok (.iorlw 0x35) := by decide
theorem test_decode_lfsr : decodeWords false 0b1110111000100011 0b1111000010101011 = .ok (.lfsr 2 0x3AB) := by decide
theorem test_decode_movlb : decodeWords false 0b0000000100001111 0 = .ok (.movlb 0xF) := by decide
theorem test_decode_movlw : decodeWords false 0b0000111001011010 0 = .ok (.movlw 0x5A) := by decide
theorem test_decode_mullw : decodeWords false 0b0000110111000100 0 = .ok (.mullw 0xC4) := by decide
theorem test_decode_sublw : decodeWords false 0b0000100000000010 0 = .ok (.sublw 0x02) := by decide
theorem test_decode_xorlw : decodeWords false 0b0000101010101111 0 = .ok (.xorlw 0xAF) := by decide
theorem test_decode_tblrd : decodeWords false 0b0000000000001000 0 = .ok (.tblrd) := by decide
theorem test_decode_tblrd_post_inc : decodeWords false 0b0000000000001001 0 = .ok (.tblrdPostInc) := by decide
theorem test_decode_tblrd_post_dec : decodeWords false 0b0000000000001010 0 = .ok (.tblrdPostDec) := by decide
theorem test_decode_tblrd_pre_inc : decodeWords false 0b0000000000001011 0 = .ok (.tblrdPreInc) := by decide
theorem test_decode_tblwt : decodeWords false 0b0000000000001100 0 = .ok (.tblwt) := by decide
theorem test_decode_tblwt_post_inc : decodeWords false 0b0000000000001101 0 = .ok (.tblwtPostInc) := by decide
theorem test_decode_tblwt_post_dec : decodeWords false 0b0000000000001110 0 = .ok (.tblwtPostDec) := by decide
theorem test_decode_tblwt_pre_inc : decodeWords false 0b0000000000001111 0 = .ok (.tblwtPreInc) := by decide
theorem test_decode_addfsr : decodeWords true 0b1110100010100011 0 = .ok (.addfsr 2 0x23) := by decide
theorem test_decode_addulnk : decodeWords true 0b1110100011100011 0 = .ok (.addulnk 0x23) := by decide
theorem test_decode_callw : decodeWords true 0b0000000000010100 0 = .ok (.callw) := by decide
theorem test_decode_movsf : decodeWords true 0b1110101100000101 0b1111000100110010 = .ok (.movsf 0x05 0x132) := by decide
theorem test_decode_movss : decodeWords true 0b1110101110000101 0b1111000000000110 = .ok (.movss 0x05 0x06) := by decide
theorem test_decode_pushl : decodeWords true 0b1110101000001000 0 = .ok (.pushl 0x08) := by decide
theorem test_decode_subfsr : decodeWords true 0b1110100101111111 0 = .ok (.subfsr 1 0x3F) := by decide
theorem test_decode_subulnk : decodeWords true 0b1110100111100011 0 = .ok (.subulnk 0x23) := by decide

/-! ### Execution: one step of each instruction (95_test_vectors.md section 3; flags as the byte 000 N OV Z DC C) -/

theorem test_addwf :
    after { machine [0x2620] with wreg := 0x80, ram := [(0x020, 0x80)] }
      (fun t => (t.flags.toByte, t.ram.read 0x020)) = some (0b01101, some 0x00) := by decide
theorem test_addwfc :
    after { machine [0x2202] with wreg := 0xFF, flags := Flags.ofByte 0b00001, ram := [(0x002, 0x00)] }
      (fun t => (t.flags.toByte, t.ram.read 0x002)) = some (0b00111, some 0x00) := by decide
theorem test_andwf :
    after { machine [0x1420] with wreg := 0x17, flags := Flags.ofByte 0b11111, ram := [(0x020, 0xC2)] }
      (fun t => (t.wreg, t.flags.toByte)) = some (0x02, 0b01011) := by decide
theorem test_clrf :
    after { machine [0x6A20] with flags := Flags.ofByte 0b11011, ram := [(0x020, 0x5A)] }
      (fun t => (t.flags.toByte, t.ram.read 0x020)) = some (0b11111, some 0x00) := by decide
theorem test_comf :
    after { machine [0x1C20] with ram := [(0x020, 0x13)] }
      (fun t => (t.wreg, t.flags.toByte)) = some (0xEC, 0b10000) := by decide
theorem test_cpfseq :
    after { machine [0x6220] with wreg := 0x30, ram := [(0x020, 0x30)] }
      (fun t => t.pc) = some 0x0104 := by decide
theorem test_cpfsgt :
    after { machine [0x6420] with wreg := 0x7F, ram := [(0x020, 0x80)] }
      (fun t => t.pc) = some 0x0104 := by decide
theorem test_cpfslt :
    after { machine [0x6020] with wreg := 0x80, ram := [(0x020, 0x7F)] }
      (fun t => t.pc) = some 0x0104 := by decide
theorem test_decf :
    after { machine [0x0620] with ram := [(0x020, 0x80)] }
      (fun t => (t.flags.toByte, t.ram.read 0x020)) = some (0b01001, some 0x7F) := by decide
theorem test_decfsz :
    after { machine [0x2E20] with flags := Flags.ofByte 0b11111, ram := [(0x020, 0x01)] }
      (fun t => (t.pc, t.flags.toByte, t.ram.read 0x020)) = some (0x0104, 0b11111, some 0x00) := by decide
theorem test_dcfsnz :
    after { machine [0x4C20] with wreg := 0x55, ram := [(0x020, 0x02)] }
      (fun t => (t.pc, t.wreg)) = some (0x0104, 0x01) := by decide
theorem test_incf :
    after { machine [0x2A20] with ram := [(0x020, 0x7F)] }
      (fun t => (t.flags.toByte, t.ram.read 0x020)) = some (0b11010, some 0x80) := by decide
theorem test_incfsz :
    after { machine [0x3E20] with ram := [(0x020, 0xFF)] }
      (fun t => (t.pc, t.ram.read 0x020)) = some (0x0104, some 0x00) := by decide
theorem test_infsnz :
    after { machine [0x4A20] with ram := [(0x020, 0xFF)] }
      (fun t => (t.pc, t.ram.read 0x020)) = some (0x0102, some 0x00) := by decide
theorem test_iorwf :
    after { machine [0x1020] with wreg := 0x91, ram := [(0x020, 0x13)] }
      (fun t => (t.wreg, t.flags.toByte)) = some (0x93, 0b10000) := by decide
theorem test_movf :
    after { machine [0x5220] with wreg := 0xFF, flags := Flags.ofByte 0b11011, ram := [(0x020, 0x00)] }
      (fun t => (t.wreg, t.flags.toByte)) = some (0xFF, 0b01111) := by decide
theorem test_movff :
    after { machine [0xCFEE, 0xFFE6] with fsr0 := 0x040, fsr1 := 0x050, ram := [(0x040, 0x9C)] }
      (fun t => (t.pc, t.fsr0, t.fsr1, t.ram.read 0x050)) = some (0x0104, 0x041, 0x051, some 0x9C) := by decide
theorem test_movwf : after { machine [0x6EE0] with wreg := 0x35 } (fun t => t.bsr) = some 0x5 := by decide
theorem test_mulwf :
    after { machine [0x0220] with wreg := 0xC4, flags := Flags.ofByte 0b11111, ram := [(0x020, 0xB5)] }
      (fun t => (t.prodh, t.prodl, t.flags.toByte)) = some (0x8A, 0x94, 0b11111) := by decide
theorem test_negf :
    after { machine [0x6C20] with ram := [(0x020, 0x80)] }
      (fun t => (t.flags.toByte, t.ram.read 0x020)) = some (0b11010, some 0x80) := by decide
theorem test_rlcf :
    after { machine [0x3620] with flags := Flags.ofByte 0b00001, ram := [(0x020, 0x80)] }
      (fun t => (t.flags.toByte, t.ram.read 0x020)) = some (0b00001, some 0x01) := by decide
theorem test_rlncf :
    after { machine [0x4620] with ram := [(0x020, 0xAB)] }
      (fun t => t.ram.read 0x020) = some (some 0x57) := by decide
theorem test_rrcf :
    after { machine [0x3220] with flags := Flags.ofByte 0b00001, ram := [(0x020, 0x01)] }
      (fun t => (t.flags.toByte, t.ram.read 0x020)) = some (0b10001, some 0x80) := by decide
theorem test_rrncf :
    after { machine [0x4220] with ram := [(0x020, 0xD7)] }
      (fun t => (t.flags.toByte, t.ram.read 0x020)) = some (0b10000, some 0xEB) := by decide
theorem test_setf :
    after { machine [0x6820] with ram := [(0x020, 0x5A)] }
      (fun t => t.ram.read 0x020) = some (some 0xFF) := by decide
theorem test_subfwb :
    after { machine [0x5620] with wreg := 0x02, flags := Flags.ofByte 0b00001, ram := [(0x020, 0x03)] }
      (fun t => (t.flags.toByte, t.ram.read 0x020)) = some (0b10000, some 0xFF) := by decide
theorem test_subwf :
    after { machine [0x5E20] with wreg := 0x01, ram := [(0x020, 0x80)] }
      (fun t => (t.flags.toByte, t.ram.read 0x020)) = some (0b01001, some 0x7F) := by decide
theorem test_subwfb :
    after { machine [0x5A20] with wreg := 0x0E, flags := Flags.ofByte 0b00001, ram := [(0x020, 0x03)] }
      (fun t => (t.flags.toByte, t.ram.read 0x020)) = some (0b10000, some 0xF5) := by decide
theorem test_swapf :
    after { machine [0x3A20] with flags := Flags.ofByte 0b11111, ram := [(0x020, 0x53)] }
      (fun t => (t.flags.toByte, t.ram.read 0x020)) = some (0b11111, some 0x35) := by decide
theorem test_tstfsz :
    after { machine [0x6620] with ram := [(0x020, 0x00)] }
      (fun t => t.pc) = some 0x0104 := by decide
theorem test_xorwf :
    after { machine [0x1820] with wreg := 0xAF, ram := [(0x020, 0xAF)] }
      (fun t => (t.wreg, t.flags.toByte)) = some (0x00, 0b00100) := by decide
theorem test_bcf :
    after { machine [0x9E20] with ram := [(0x020, 0xC7)] }
      (fun t => t.ram.read 0x020) = some (some 0x47) := by decide
theorem test_bsf : after (machine [0x84D8]) (fun t => t.flags.toByte) = some 0b00100 := by decide
theorem test_btfsc : after { machine [0xB220] with ram := [(0x020, 0xFD)] } (fun t => t.pc) = some 0x0104 := by decide
theorem test_btfss : after { machine [0xA220] with ram := [(0x020, 0xFD)] } (fun t => t.pc) = some 0x0102 := by decide
theorem test_btg :
    after { machine [0x7820] with ram := [(0x020, 0x75)] }
      (fun t => t.ram.read 0x020) = some (some 0x65) := by decide
theorem test_bc :
    after { machine [0xE2FB] with flags := Flags.ofByte 0b00001 }
      (fun t => t.pc) = some 0x00F8 := by decide
theorem test_bn :
    after { machine [0xE605] with flags := Flags.ofByte 0b01111 }
      (fun t => t.pc) = some 0x0102 := by decide
theorem test_bnc :
    after { machine [0xE305] with flags := Flags.ofByte 0b11110 }
      (fun t => t.pc) = some 0x010C := by decide
theorem test_bnn :
    after { machine [0xE705] with flags := Flags.ofByte 0b01111 }
      (fun t => t.pc) = some 0x010C := by decide
theorem test_bnov :
    after { machine [0xE505] with flags := Flags.ofByte 0b10111 }
      (fun t => t.pc) = some 0x010C := by decide
theorem test_bnz :
    after { machine [0xE105] with flags := Flags.ofByte 0b11011 }
      (fun t => t.pc) = some 0x010C := by decide
theorem test_bov :
    after { machine [0xE405] with flags := Flags.ofByte 0b01000 }
      (fun t => t.pc) = some 0x010C := by decide
theorem test_bra : after (machine [0xD400]) (fun t => t.pc) = some 0x1FF902 := by decide
theorem test_bz :
    after { machine [0xE0FE] with flags := Flags.ofByte 0b00100 }
      (fun t => t.pc) = some 0x00FE := by decide
theorem test_call :
    after { machine [0xED34, 0xF012] with wreg := 0x11, flags := Flags.ofByte 0b10101, bsr := 0x3 }
      (fun t => (t.pc, t.sp, t.tos, t.shadow.ws, t.shadow.statuss.toByte, t.shadow.bsrs)) = some (0x2468, 1, 0x0104, 0x11, 0x15, 0x3) := by decide
theorem test_clrwdt :
    after { machine [0x0004] with rcon := { State.reset.rcon with powerDown := false } }
      (fun t => (t.rcon.powerDown, t.rcon.timeOut)) = some (true, true) := by decide
theorem test_daw :
    after { machine [0x0007] with wreg := 0x32, flags := Flags.ofByte 0b00011 }
      (fun t => (t.wreg, t.flags.c)) = some (0x98, true) := by decide
theorem test_goto : after (machine [0xEFFF, 0xFFFF]) (fun t => t.pc) = some 0x1FFFFE := by decide
theorem test_nop :
    after { machine [0x0000] with wreg := 0x12 }
      (fun t => (t.pc, t.wreg)) = some (0x0102, 0x12) := by decide
theorem test_nop_second :
    after { machine [0xF123] with wreg := 0x12 }
      (fun t => (t.pc, t.wreg)) = some (0x0102, 0x12) := by decide
theorem test_pop :
    after { machine [0x0006] with sp := 2, stack := State.reset.stack.setIfInBounds 0 0x0200 }
      (fun t => (t.pc, t.sp, t.tos)) = some (0x0102, 1, 0x0200) := by decide
theorem test_push : after (machine [0x0005]) (fun t => (t.pc, t.sp, t.tos)) = some (0x0102, 1, 0x0102) := by decide
theorem test_rcall : after (machine [0xDFFE]) (fun t => (t.pc, t.tos)) = some (0x00FE, 0x0102) := by decide
theorem test_reset :
    after { machine [0x00FF] with bsr := 0x5, fsr0 := 0xABC, wreg := 0x12 }
      (fun t => (t.pc, t.bsr, t.fsr0, t.wreg, t.rcon.ri)) = some (0x000000, 0, 0x0BC, 0x12, false) := by decide
theorem test_retfie :
    after { machine [0x0010] with gieh := true, rcon := { State.reset.rcon with ipen := true }, sp := 1, stack := State.reset.stack.setIfInBounds 0 0x0300 }
      (fun t => (t.pc, t.gieh, t.giel, t.sp)) = some (0x0300, true, true, 0) := by decide
theorem test_retlw :
    after { machine [0x0C07] with sp := 1, stack := State.reset.stack.setIfInBounds 0 0x0300 }
      (fun t => (t.pc, t.wreg)) = some (0x0300, 0x07) := by decide
theorem test_return :
    after { machine [0x0013] with shadow := ⟨0xAA, Flags.ofByte 0x15, 0x2⟩, sp := 1, stack := State.reset.stack.setIfInBounds 0 0x0300 }
      (fun t => (t.pc, t.wreg, t.flags.toByte, t.bsr)) = some (0x0300, 0xAA, 0b10101, 0x2) := by decide
theorem test_sleep :
    after (machine [0x0003])
      (fun t => (t.pc, t.rcon.powerDown, t.runState)) = some (0x0102, false, .sleeping) := by decide
theorem test_addlw :
    after { machine [0x0F80] with wreg := 0x80 }
      (fun t => (t.wreg, t.flags.toByte)) = some (0x00, 0b01101) := by decide
theorem test_andlw :
    after { machine [0x0B5F] with wreg := 0xA3, flags := Flags.ofByte 0b11111 }
      (fun t => (t.wreg, t.flags.toByte)) = some (0x03, 0b01011) := by decide
theorem test_iorlw :
    after { machine [0x0935] with wreg := 0x9A }
      (fun t => (t.wreg, t.flags.toByte)) = some (0xBF, 0b10000) := by decide
theorem test_lfsr :
    after { machine [0xEE0F, 0xF0FF] with fsr0 := 0x123 }
      (fun t => (t.pc, t.fsr0)) = some (0x0104, 0xFFF) := by decide
theorem test_movlb : after { machine [0x010F] with bsr := 0x5 } (fun t => t.bsr) = some 0xF := by decide
theorem test_movlw : after (machine [0x0E5A]) (fun t => t.wreg) = some 0x5A := by decide
theorem test_mullw :
    after { machine [0x0DC4] with wreg := 0xE2 }
      (fun t => (t.prodh, t.prodl)) = some (0xAD, 0x08) := by decide
theorem test_sublw :
    after { machine [0x087F] with wreg := 0xFF }
      (fun t => (t.wreg, t.flags.toByte)) = some (0x80, 0b11010) := by decide
theorem test_xorlw :
    after { machine [0x0AB5] with wreg := 0xB5 }
      (fun t => (t.wreg, t.flags.toByte)) = some (0x00, 0b00100) := by decide
theorem test_tblrd :
    after { machine [0x0008, 0x1234] with tblptr := 0x000103 }
      (fun t => (t.tablat, t.tblptr)) = some (0x12, 0x000103) := by decide
theorem test_tblrd_post_inc :
    after { machine [0x0009, 0x1234] with tblptr := 0x000102 }
      (fun t => (t.tablat, t.tblptr)) = some (0x34, 0x000103) := by decide
theorem test_tblrd_post_dec :
    after { machine [0x000A, 0x1234] with tblptr := 0x000102 }
      (fun t => (t.tablat, t.tblptr)) = some (0x34, 0x000101) := by decide
theorem test_tblrd_pre_inc :
    after { machine [0x000B, 0x1234] with tblptr := 0x000102 }
      (fun t => (t.tablat, t.tblptr)) = some (0x12, 0x000103) := by decide
theorem test_tblwt :
    after { machine [0x000C] with tblptr := 0x002356, tablat := 0x55 }
      (fun t => (t.hold, t.tblptr)) = some ([(6, 0x55)], 0x002356) := by decide
theorem test_tblwt_post_inc :
    after { machine [0x000D] with tblptr := 0x002356, tablat := 0x55 }
      (fun t => (t.hold, t.tblptr)) = some ([(6, 0x55)], 0x002357) := by decide
theorem test_tblwt_post_dec :
    after { machine [0x000E] with tblptr := 0x002350, tablat := 0x55 }
      (fun t => (t.hold, t.tblptr)) = some ([(0, 0x55)], 0x00234F) := by decide
theorem test_tblwt_pre_inc :
    after { machine [0x000F] with tblptr := 0x00235F, tablat := 0x55 }
      (fun t => (t.hold, t.tblptr)) = some ([(0, 0x55)], 0x002360) := by decide
theorem test_addfsr : after { extended [0xE83F] with fsr0 := 0xFF0 } (fun t => t.fsr0) = some 0x02F := by decide
theorem test_addulnk :
    after { extended [0xE8E3] with fsr2 := 0x3FF, sp := 1, stack := State.reset.stack.setIfInBounds 0 0x0300 }
      (fun t => (t.pc, t.fsr2)) = some (0x0300, 0x422) := by decide
theorem test_callw :
    after { extended [0x0014] with wreg := 0x07, pclath := 0x10 }
      (fun t => (t.pc, t.tos)) = some (0x1006, 0x0102) := by decide
theorem test_movsf :
    after { extended [0xEB05, 0xF132] with fsr2 := 0x080, ram := [(0x085, 0x33)] }
      (fun t => (t.pc, t.ram.read 0x132)) = some (0x0104, some 0x33) := by decide
theorem test_movss :
    after { extended [0xEBFF, 0xF000] with fsr2 := 0x080, ram := [(0x0FF, 0x44)] }
      (fun t => (t.pc, t.ram.read 0x080)) = some (0x0104, some 0x44) := by decide
theorem test_pushl :
    after { extended [0xEA08] with fsr2 := 0x000 }
      (fun t => (t.fsr2, t.ram.read 0x000)) = some (0xFFF, some 0x08) := by decide
theorem test_subfsr : after { extended [0xE97F] with fsr1 := 0x010 } (fun t => t.fsr1) = some 0xFD1 := by decide
theorem test_subulnk :
    after { extended [0xE9E3] with fsr2 := 0x3FF, sp := 1, stack := State.reset.stack.setIfInBounds 0 0x0300 }
      (fun t => (t.pc, t.fsr2)) = some (0x0300, 0x3DC) := by decide
/-! ### Addressing, the stack, interrupts, sleep and resets (95_test_vectors.md sections 3 and 5) -/

theorem test_plusw_is_signed :
    after { machine [0x6EEB] with wreg := 0xFE, fsr0 := 0x102 } (fun t => (t.fsr0, t.ram.read 0x100)) =
      some (0x102, some 0xFE) := by decide
theorem test_postinc_moves_once :
    after { machine [0x2ADE] with fsr2 := 0x080, ram := [(0x080, 0x41)] } (fun t => (t.fsr2, t.ram)) =
      some (0x081, [(0x080, 0x42)]) := by decide
theorem test_indexed_literal_offset :
    after { extended [0x2605] with wreg := 0x01, fsr2 := 0x120, ram := [(0x125, 0x10)] } (fun t => t.ram) =
      some [(0x125, 0x11)] := by decide
theorem test_take_high :
    after { machine [] with
        gieh := true, wreg := 0x3C, flags := Flags.ofByte 0b00101, env := [[.request ⟨false, .high⟩]] }
      (fun t => (t.pc, t.tos, t.gieh, t.shadow.ws, t.shadow.statuss.toByte)) =
      some (0x000008, 0x0100, false, 0x3C, 0x05) := by decide
/-- 60_exceptions.md R283, IPEN = 0: PEIE gates a peripheral's request, not that of an INTCON source; there is one vector. -/
theorem test_compatibility_gates :
    after { machine [0x0000] with gieh := true, requests := { pieHigh := true } } (fun t => t.pc) = some 0x0102 ∧
    after { machine [] with gieh := true, giel := true, requests := { pieLow := true } } (fun t => (t.pc, t.gieh)) =
      some (0x0008, false) ∧
    after { machine [] with gieh := true, requests := { intconLow := true } } (fun t => t.pc) = some 0x0008 := by decide
/-- R289(a), (b), IPEN = 1: the high request before the low, a reset before both; R287: the request goes on standing. -/
theorem test_simultaneous_events :
    let s : State := { machine [] with
      gieh := true, giel := true, rcon := { State.reset.rcon with ipen := true }, requests := { intconLow := true } }
    after { s with env := [[.request ⟨true, .high⟩]] } (fun t => (t.pc, t.giel)) = some (0x0008, true) ∧
    after { s with env := [[.request ⟨true, .high⟩, .masterClear]] } (fun t => t.pc) = some 0x0000 ∧
    after s (fun t => (t.pc, t.requests.intconLow)) = some (0x0018, true) := by decide
/-- R286: `BTFSS` over a `GOTO` (pc at its second word): the word is passed before the interrupt is entered; over a one-word
instruction the interrupt comes at once. -/
theorem test_no_interrupt_inside_skip :
    let s : State := { machine [0xEF34, 0xF012] with
      pc := 0x0102, skipped := true, gieh := true, requests := { intconHigh := true } }
    after s (fun t => (t.pc, t.skipped, t.gieh)) = some (0x0104, false, true) ∧
    after { s with prog := (machine [0x0000, 0xF012]).prog } (fun t => (t.pc, t.tos)) = some (0x0008, 0x0102) := by decide
theorem test_skip_is_remembered :
    after { machine [0x6620] with ram := [(0x020, 0x00)] } (fun t => (t.pc, t.skipped)) = some (0x0104, true) ∧
    after { machine [0x6620] with ram := [(0x020, 0x01)] } (fun t => (t.pc, t.skipped)) = some (0x0102, false) := by decide
/-- R296(c): a request wakes the core with its gate closed or open, and the instruction at pc comes first. -/
theorem test_wake_runs_one_instruction :
    after { machine [0x0E5A] with runState := .sleeping, gieh := true, env := [[.request ⟨false, .high⟩]] }
      (fun t => (t.pc, t.wreg, t.runState)) = some (0x0102, 0x5A, .running) := by decide
/-- R316(c), also at a boundary with moves that do nothing: a run that the `RESET` instruction ends. -/
theorem test_reset_ends_run :
    (match runLaunch { resetEndsRun := true } 2 false { machine [0x00FF] with env := [[.withdraw ⟨true, .low⟩]] } with
      | .ended t => t.pc
      | _ => 1) = 0x0000 := by decide
theorem test_pop_of_empty_loads_zero :
    after { hardware [0x0006] with cfg := { (hardware []).cfg with stvren := false } }
      (fun t => (t.pc, t.sp, t.stkunf)) = some (0, 0, true) := by decide
theorem test_stack_reset_on_fill :
    after { hardware [0x0005] with sp := 30 } (fun t => (t.pc, t.sp, t.stkful)) = some (0, 0, true) := by decide
theorem test_stops :
    stop (machine [0x5020]) = some .unwrittenRead ∧
    stop { machine [0x26D8] with wreg := 0x01 } = some .statusDestination ∧
    stop { hardware [0x6EF2] with wreg := 0x20 } = some .outOfScopeSfr ∧
    stop (machine [0x6EFC]) = some .stackRegisterWrite ∧
    stop (machine [0x0012]) = some .stackUnderflow ∧
    stop { machine [0x0005] with sp := 31 } = some .stackOverflow ∧
    stop (hardware [0x6E80]) = some (.outOfScopeData 0xF80) ∧
    stop { extended [0x2609] with fsr2 := 0xFD6 } = some .virtualViaFsr2 ∧
    stop (machine [0xCFF9, 0xF020]) = some .pclInTwoWord := by decide
theorem test_more_stops :
    stop { hardware [0xC020, 0xFFF9] with ram := [(0x020, 0x00)] } = some .pclOrTosDestination ∧
    stop (hardware [0x3EF9]) = some .pclSkipDestination ∧
    stop (machine []) = some (.outsideProgramImage 0x0100) ∧
    stop { hardware [0x0008] with tblptr := 0x200000 } = some .tableOutsideProgramSpace ∧
    stop (hardware [0x0110]) = some (.reservedEncoding 0x0110) ∧
    stop (hardware [0xEE00, 0xF140]) = some .badSecondWord ∧
    stop (hardware [0xE8A3]) = some (.extendedDisabled 0xE8A3) := by decide

/-! ### Assembly statements (30_encoding.md R127 to R129) -/

theorem test_assembly_defaults : assemble 0x0100 (.fileDest "ADDWF" 0x120 none none) = some (.addwf 0x20 .f .access) ∧
    assemble 0x0100 (.ret "RETURN" none) = some (.ret false) ∧
    assemble 0x0100 (.file "CLRF" 0x20 (some 1)) = some (.clrf 0x20 .banked) := ⟨rfl, rfl, rfl⟩

/-- The worked example of 42_control.md R191, n = -5 from 0x0100 to 0x00F8; that of R200; a target too far, and an odd one. -/
theorem test_assembly_targets : branchField 8 0x0100 0x00F8 = some (-5) ∧
    assemble 0x0100 (.call 0x2468 (some 1)) = some (.call 0x01234 true) ∧ branchField 8 0x0100 0x0202 = none ∧
    branchField 8 0x0100 0x0101 = none := ⟨by decide, rfl, by decide, by decide⟩

theorem test_assembly_refused : assemble 0 (.fileDest "NEGF" 0x20 (some 0) none) = none ∧
    assemble 0 (.fileDest "NEGF" 0x20 (some 1) none) = some (.negf 0x20 .access) ∧ assemble 0 (.pair "LFSR" 3 0) = none ∧
    assemble 0 (.value "MOVLB" 16) = none := ⟨rfl, rfl, rfl, rfl⟩

/-! ### The host's placement of an instruction -/

theorem test_table_word : decodeTableWord 32 0x6E21C020 = none ∧ decodeTableWord 16 0x2420 = some (.addwf 0x20 .w .access) ∧
    decodeTableWord 32 0xF132C025 = some (.movff 0x025 0x132) := by decide
theorem test_placed_word_runs : after (State.reset.withFetchWord 16 0x0E5A) (fun t => (t.pc, t.wreg)) = some (2, 0x5A) := by decide

/-! ### Witnesses: for each statement with hypotheses, states and operands that meet them, clause by clause -/

/-- A state with a byte of RAM at 0x020. -/
def loaded : State := { machine [0x2620] with ram := [(0x020, 0x80)], wreg := 0x80 }

/-- StepKeepsInvariant, StepKeepsProgramAndConfiguration: a store to the last byte of RAM. -/
theorem witness_invariant_step :
    State.Inv { machine [0x6FFF] with bsr := 0x1 } ∧ ∃ t, step { machine [0x6FFF] with bsr := 0x1 } = .next t :=
  ⟨by unfold State.Inv; decide, next_of (by decide)⟩

/-- DecodeOfEncodeGivesInstruction: the largest operands, without and with the extended set. -/
theorem witness_well_formed :
    (Instr.lfsr 2 0xFFF).wellFormed = true ∧ (Instr.lfsr 2 0xFFF).isExtended = false ∧
    (Instr.movss 0x7F 0x7F).wellFormed = true ∧ (Instr.movss 0x7F 0x7F).isExtended = true := by decide

/-- EveryWordIsOneRowOrReserved: a word that fits a row, and each end of each range of reserved words. -/
theorem witness_rows :
    (opcodeRows.any fun r => r.fits 0x2420) = true ∧
    ([0x0001, 0x0002, 0x0015, 0x00FE, 0x0110, 0x01FF, 0xEE30, 0xEEFF].all reservedWord) = true ∧
    ([0x0000, 0x0003, 0x0014, 0x00FF, 0x010F, 0x0200, 0xEE2F, 0xEF00].any reservedWord) = false := by decide

/-- ReservedAndBadWordsStop: reserved words at the ends of a range; a second word without its prefix; `LFSR`'s. -/
theorem witness_reserved :
    progWord (machine [0x0110]) 0x0100 = .ok 0x0110 ∧ reservedWord 0x0110 = true ∧
    progWord (machine [0x01FF]) 0x0100 = .ok 0x01FF ∧ reservedWord 0x01FF = true ∧
    progWord (machine [0xC020, 0x6E21]) 0x0100 = .ok 0xC020 ∧ progWord (machine [0xC020, 0x6E21]) 0x0102 = .ok 0x6E21 ∧
    twoWordFirst false 0xC020 = true ∧ goodSecondWord 0xC020 0x6E21 = false ∧
    progWord (machine [0xEE2F, 0xF100]) 0x0100 = .ok 0xEE2F ∧ progWord (machine [0xEE2F, 0xF100]) 0x0102 = .ok 0xF100 ∧
    twoWordFirst false 0xEE2F = true ∧ goodSecondWord 0xEE2F 0xF100 = false ∧
    turn (machine [0x0110]) = .instruction (machine [0x0110]) ∧ turn (machine [0x01FF]) = .instruction (machine [0x01FF]) ∧
    turn (machine [0xC020, 0x6E21]) = .instruction (machine [0xC020, 0x6E21]) ∧
    turn (machine [0xEE2F, 0xF100]) = .instruction (machine [0xEE2F, 0xF100]) := by decide

/-- ExtendedSetNeedsXinst: both ends of the extended range, and an instruction. -/
theorem witness_extended :
    (machine []).cfg.xinst = false ∧ turn (machine [0xE800]) = .instruction (machine [0xE800]) ∧
    turn (machine [0xEBFF]) = .instruction (machine [0xEBFF]) ∧ turn (machine [0x0014]) = .instruction (machine [0x0014]) ∧
    progWord (machine [0xE800]) 0x0100 = .ok 0xE800 ∧ extendedWord 0xE800 = true ∧
    progWord (machine [0xEBFF]) 0x0100 = .ok 0xEBFF ∧ extendedWord 0xEBFF = true ∧
    progWord (machine [0x0014]) 0x0100 = .ok 0x0014 ∧ extendedWord 0x0014 = true ∧
    Instr.callw.isExtended = true ∧ Instr.callw.wellFormed = true := by decide

/-- StepRunsDecodedInstruction: one word, and two; a boundary with moves that change nothing, and one with none. -/
theorem witness_fetched :
    let s : State := { machine [0x2620] with env := [[.request ⟨true, .low⟩, .withdraw ⟨false, .high⟩]] }
    s.runState = .running ∧ .powerOn ∉ s.movesNow ∧ .masterClear ∉ s.movesNow ∧ .wdtTimeout ∉ s.movesNow ∧
    interruptDue s.arrive = none ∧ (machine []).env = [] ∧ interruptDue (machine []) = none ∧
    turn (machine [0x2620]) = .instruction (machine [0x2620]) ∧
    progByte (machine [0x2620]) 0x0100 = .ok 0x20 ∧ progByte (machine [0x2620]) 0x0101 = .ok 0x26 ∧
    decodeBytes false [0x20, 0x26] = .ok (.addwf 0x20 .f .access, []) ∧
    turn (machine [0xC025, 0xF132]) = .instruction (machine [0xC025, 0xF132]) ∧
    progByte (machine [0xC025, 0xF132]) 0x0102 = .ok 0x32 ∧ progByte (machine [0xC025, 0xF132]) 0x0103 = .ok 0xF1 ∧
    decodeBytes false [0x25, 0xC0, 0x32, 0xF1] = .ok (.movff 0x025 0x132, []) := by decide

/-- SecondWordRunsAsNop: both ends of the range; a skip over two words and over one, an interrupt being due. -/
theorem witness_second_word :
    let s : State := { machine [0xEE2F, 0xF0FF] with
      pc := 0x0102, skipped := true, gieh := true, requests := { intconHigh := true } }
    turn (machine [0xF000]) = .instruction (machine [0xF000]) ∧ turn (machine [0xFFFF]) = .instruction (machine [0xFFFF]) ∧
    progWord (machine [0xF000]) 0x0100 = .ok 0xF000 ∧ (0xF000 : Word).extractLsb' 12 4 = 0b1111#4 ∧
    progWord (machine [0xFFFF]) 0x0100 = .ok 0xFFFF ∧ (0xFFFF : Word).extractLsb' 12 4 = 0b1111#4 ∧
    s.runState = .running ∧ resetDue s = none ∧ s.skipped = true ∧ progWord s (s.pc - 2) = .ok 0xEE2F ∧
    twoWordFirst s.cfg.xinst 0xEE2F = true ∧ twoWordFirst s.cfg.xinst 0xEE30 = false ∧
    progWord { s with prog := (machine [0xEE30]).prog } (s.pc - 2) = .ok 0xEE30 ∧
    interruptDue s.arrive = some .high := by decide
/-- DawAfterAdditionIsDecimal: 99 + 99 + 1. -/
theorem witness_decimal :
    ∃ s : State, s.wreg = (addFlags 0x99 0x99 true).value ∧ s.flags = (addFlags 0x99 0x99 true).flags :=
  ⟨{ State.reset with wreg := _, flags := _ }, rfl, rfl⟩

/-- The byte- and bit-oriented statements: an operand in RAM, in a register, through a pointer; a result that can be put
there; STATUS (StatusAsFlagDestination); PCL (CountAndSkipInstructions). -/
theorem witness_operand :
    (∃ v u, readOperand (loaded.advance 2) 0x20 .access = .ok ⟨.ram 0x020, v, u⟩ ∧
      ∀ r, locWritable u r (.ram 0x020) = true) ∧
    (∃ v u, readOperand (loaded.advance 2) 0xE8 .access = .ok ⟨.reg .wreg, v, u⟩) ∧
    (∃ v u, readOperand (State.advance { loaded with fsr0 := 0x020 } 2) 0xEE .access = .ok ⟨.ram 0x020, v, u⟩) ∧
    (∃ v u, readOperand (loaded.advance 2) 0xD8 .access = .ok ⟨.reg .status, v, u⟩) ∧
    (∃ v u, readOperand (loaded.advance 2) 0xF9 .access = .ok ⟨.reg .pcl, v, u⟩) :=
  ⟨⟨_, _, rfl, fun _ => rfl⟩, ⟨_, _, rfl⟩, ⟨_, _, rfl⟩, ⟨_, _, rfl⟩, ⟨_, _, rfl⟩⟩

/-- StatusAsFlagDestination: both settings, and an instruction that writes flags. -/
theorem witness_status_destination :
    loaded.cfg.admitted = true ∧ (hardware []).cfg.admitted = false ∧
    (∃ v u, readOperand ((hardware []).advance 2) 0xD8 .access = .ok ⟨.reg .status, v, u⟩) ∧
    (Instr.rlcf 0xD8 .f .access).fileOperand = some (0xD8, .access) ∧ (Instr.rlcf 0xD8 .f .access).storesToFile = true ∧
    (Instr.rlcf 0xD8 .f .access).flagsWritten ≠ {} :=
  ⟨rfl, rfl, ⟨_, _, rfl⟩, rfl, rfl, by decide⟩

/-- ClearSetAndStoreInstructions: a resolved operand that takes a byte, and INTCON. -/
theorem witness_resolved :
    (∃ u, resolveOperand ((machine []).advance 2) 0x5F .access = .ok ⟨.ram 0x05F, u⟩ ∧
      locWritable u 0x00 (.ram 0x05F) = true ∧ locWritable u 0xFF (.ram 0x05F) = true) ∧
    (∃ u, resolveOperand ((machine []).advance 2) 0xF2 .access = .ok ⟨.reg .intcon, u⟩ ∧
      locWritable u 0x00 (.reg .intcon) = true) :=
  ⟨⟨_, rfl, rfl, rfl⟩, ⟨_, rfl, rfl⟩⟩

/-- CompareAndTestSkips, CountAndSkipInstructions, RelativeBranches, CallsPushReturnAddress, ProgramCounterAsRegister,
CallThenReturnComesBack and InterruptThenReturnRestores: an even pc. -/
theorem witness_even_pc : loaded.pc.getLsbD 0 = false ∧ State.reset.pc.getLsbD 0 = false := by decide

/-- MoveFileToFile: RAM to RAM through a moving pointer; and PCL, TOSL as destinations. -/
theorem witness_movff :
    let s : State := { loaded with fsr0 := 0x01F, sp := 1 }
    ∃ x v u, resolve (s.advance 4) 0xFEC = .ok x ∧ locRead .two x.st x.loc = .ok (v, u) ∧
      (∃ z, resolve u 0x1FF = .ok z ∧ moveForbidden z.loc = false ∧ locWritable z.st v z.loc = true) ∧
      (∃ z, resolve u 0xFF9 = .ok z ∧ z.loc = .reg .pcl) ∧ ∃ z, resolve u 0xFFD = .ok z ∧ z.loc = .reg .tosl :=
  ⟨_, _, _, rfl, rfl, ⟨_, rfl, rfl, rfl⟩, ⟨_, rfl, rfl⟩, ⟨_, rfl, rfl⟩⟩

/-- MoveIndexed: a byte of RAM as the source; RAM, a virtual register, and PCL as destinations. -/
theorem witness_move_indexed :
    let s : State := { extended [] with fsr2 := 0xFE0 - 0x7F, ram := [] }
    let r : State := { extended [] with fsr2 := 0x020, ram := [(0x020, 0x33)] }
    s.cfg.xinst = true ∧ r.cfg.xinst = true ∧
    (∃ l v u, resolveIndexed (s.advance 4) 0x7F = .ok l ∧ locRead .two (s.advance 4) l = .ok (v, u) ∧
      (∃ z, resolve u 0x1FF = .ok z ∧ moveForbidden z.loc = false ∧ locWritable z.st v z.loc = true) ∧
      (∃ z, resolve u 0xFFF = .ok z ∧ moveForbidden z.loc = true)) ∧
    (∃ v u m, resolveIndexed (r.advance 4) 0x00 = .ok (.ram 0x020) ∧ locRead .two (r.advance 4) (.ram 0x020) = .ok (v, u) ∧
      resolveIndexed (r.advance 4) 0x7F = .ok m ∧ moveForbidden m = false ∧ locWritable u v m = true) ∧
    (∃ m, resolveIndexed (State.advance { r with fsr2 := 0xFF9 } 4) 0x00 = .ok m ∧ moveForbidden m = true) :=
  ⟨rfl, rfl, ⟨_, _, _, rfl, rfl, ⟨_, rfl, rfl, rfl⟩, ⟨_, rfl, rfl⟩⟩, ⟨_, _, _, rfl, rfl, rfl, rfl, rfl⟩, ⟨_, rfl, rfl⟩⟩

/-- MoveIndexed: a virtual register as the source, and as the destination of `MOVSS`. -/
theorem witness_move_indexed_virtual :
    let s : State := { extended [] with fsr2 := 0xFDF }
    isVirtual (s.fsr2 + (0x00 : BitVec 7).setWidth 12) = true ∧ resolveIndexed (s.advance 4) 0x00 = .ok .null ∧
      ∃ v u, locRead .two (s.advance 4) .null = .ok (v, u) :=
  ⟨by decide, rfl, ⟨_, _, rfl⟩⟩

/-- CallsPushReturnAddress, CallThenReturnComesBack: the last push but one anywhere, and the one that fills the stack. -/
theorem witness_room :
    roomToPush { hardware [] with sp := 29 } = true ∧ roomToPush { machine [] with sp := 30 } = true ∧
    roomToPush { hardware [] with sp := 30, cfg := { stvren := false } } = true ∧ (extended []).cfg.xinst = true ∧
    ∃ t, exec (.call 0xFFFFF true) { machine [] with sp := 30 } = .next t :=
  ⟨by decide, by decide, by decide, by decide, next_of (by decide)⟩

/-- ReturnsPopReturnAddress: a full stack. -/
theorem witness_held :
    let s : State := { extended [] with sp := 31 }
    s.sp ≠ 0 ∧ s.stack[s.sp.toNat - 1]? = some 0 ∧ s.cfg.xinst = true := by decide

/-- StackLimitsStopAdmittedModel, StackLimitsOfTheHardware: each clause. -/
theorem witness_stack_limits :
    (machine []).cfg.admitted = true ∧ (hardware []).cfg.admitted = false ∧ (hardware []).cfg.stvren = true ∧
    ({ stvren := false } : Config).admitted = false ∧ ({ stvren := false } : Config).stvren = false ∧
    Instr.push.pushes = true ∧ Instr.pop.pops = true ∧ Instr.push.isExtended = false ∧ Instr.pop.isExtended = false ∧
    (machine []).cfg.stackDepth = 31 ∧ Instr.callw.pushes = true ∧ (Instr.addulnk 0).pops = true ∧ (extended []).cfg.xinst = true ∧
    ({ hardware [] with sp := 30 } : State).sp.toNat = 30 ∧ ({ hardware [] with sp := 31 } : State).sp = 31 ∧
    (hardware []).sp = 0 := by decide

/-- PushLiteral: the last byte of RAM, and a virtual register. -/
theorem witness_pushl :
    isVirtual 0x1FF = false ∧ resolveDirect { extended [] with fsr2 := 0x1FF } 0x1FF = .ok (.ram 0x1FF) ∧
    locWritable { extended [] with fsr2 := 0x1FF } 0xFF (.ram 0x1FF) = true ∧ isVirtual 0xFEF = true := by decide

/-- TableReads, TableWrites: the last address of program memory, and the first beyond it. -/
theorem witness_table :
    (0x1FFFFF : TblAddr).getLsbD 21 = false ∧ progByte (hardware []) ((0x1FFFFF : TblAddr).setWidth 21) = .ok 0x00 ∧
    progByte (machine []) ((0x1FFFFF : TblAddr).setWidth 21) = .error (.outsideProgramImage 0x1FFFFF) ∧
    (0x200000 : TblAddr).getLsbD 21 = true := by decide

/-- ProgramBytes: a byte of the image; outside it, in the admitted model and either side of `PROG_BYTES`. -/
theorem witness_program_bytes :
    (machine [0x2620]).prog.read 0x0101 = some 0x26 ∧ (machine [0x2620]).prog.read 0x0102 = none ∧
    (machine []).cfg.admitted = true ∧ (hardware []).prog.read 0x3FFF = none ∧ (hardware []).cfg.admitted = false ∧
    (0x3FFF : ProgAddr).toNat < (hardware []).cfg.progBytes ∧ (hardware []).cfg.progBytes ≤ (0x4000 : ProgAddr).toNat ∧
    (hardware []).prog.read 0x4000 = none := by decide

/-- EffectiveAddress: the last offset of the indexed mode, on INDF2. -/
theorem witness_indexed_mode :
    (extended []).cfg.xinst = true ∧ (0x5F : Byte).toNat ≤ 0x5F ∧
    isVirtual ((0xFDF - 0x5F : DataAddr) + (0x5F : Byte).setWidth 12) = true ∧
    (Instr.clrf 0x5F .access).fileOperand = some (0x5F, .access) := by decide

/-- OperandsInScopeCanBeRead: an operand, resolved and read. -/
theorem witness_in_scope :
    (∃ r, resolveOperand loaded 0x20 .access = .ok r) ∧ ∃ l v u, readOperand loaded 0x20 .access = .ok ⟨l, v, u⟩ :=
  ⟨⟨_, rfl⟩, ⟨_, _, _, rfl⟩⟩

/-- IndirectAccessMovesPointerOnce: each kind; targets that are and are not virtual, in scope and out. -/
theorem witness_indirect :
    coreEntry 0xFEF = some (.virtual .indf .f0) ∧ coreEntry 0xFE6 = some (.virtual .postinc .f1) ∧
    coreEntry 0xFDD = some (.virtual .postdec .f2) ∧ coreEntry 0xFEC = some (.virtual .preinc .f0) ∧
    coreEntry 0xFE3 = some (.virtual .plusw .f1) ∧ isVirtual 0xFE7 = true ∧ isVirtual 0x1FF = false ∧
    resolveDirect (machine []) 0x1FF = .ok (.ram 0x1FF) ∧ resolveDirect (machine []) 0x200 = .error (.outOfScopeData 0x200) :=
  by decide

/-- DirectAddresses: a core register, the last of RAM, the first beyond it, the last before the registers, the first of
them. -/
theorem witness_direct :
    (isVirtual 0xFD8 = false ∧ coreEntry 0xFD8 = some (.core .status)) ∧
    (isVirtual 0x1FF = false ∧ coreEntry 0x1FF = none ∧ (0x1FF : DataAddr).toNat < (hardware []).cfg.ramBytes) ∧
    (isVirtual 0xF53 = false ∧ coreEntry 0xF53 = none ∧ (hardware []).cfg.ramBytes ≤ (0xF53 : DataAddr).toNat ∧
      (hardware []).cfg.sfrBase ≤ 0xF53) ∧
    (isVirtual 0x200 = false ∧ coreEntry 0x200 = none ∧ (hardware []).cfg.ramBytes ≤ (0x200 : DataAddr).toNat) ∧
    isVirtual 0xF52 = false ∧ coreEntry 0xF52 = none ∧ (0xF52 : DataAddr) < (hardware []).cfg.sfrBase ∧
    (hardware []).cfg.admitted = false ∧ (machine []).cfg.admitted = true := by decide

/-- RamReadsWhatWasWritten: a write, and a byte never written under both settings. -/
theorem witness_ram :
    (∃ t, locWrite (machine []) (.ram 0x1FF) 0xFF = .ok t) ∧ (machine []).ram.read 0x000 = none ∧
    (machine []).cfg.admitted = true ∧ (hardware []).ram.read 0x000 = none ∧ (hardware []).cfg.admitted = false :=
  ⟨⟨_, rfl⟩, rfl, rfl, rfl, rfl⟩

/-- CoreRegisterLayouts: a write of each register; INTCON with and without bits 5:3; a stack that holds an entry. -/
theorem witness_layouts :
    (∀ r ∈ [Sfr.wreg, .prodh, .prodl, .tablat, .pclath, .fsrl .f0, .tblptrh, .tblptrl, .bsr, .fsrh .f2, .pclatu, .tblptru,
      .status, .rcon], ∃ t, sfrWrite (machine []) r 0xFF = .ok t) ∧
    (∃ t, sfrWrite (machine []) .intcon 0xC7 = .ok t) ∧ (0x08 : Byte) &&& 0x38 ≠ 0 ∧
    (∀ r ∈ [Sfr.tosu, .tosh, .tosl], ∃ t, sfrWrite { machine [] with sp := 31 } r 0xFF = .ok t) := by
  refine ⟨?_, ⟨_, rfl⟩, by decide, ?_⟩ <;> simp [sfrWrite, tosWrite]

/-- ProgramCounterAsRegister: bank 15, under both settings. -/
theorem witness_pcl :
    let s : State := { machine [] with bsr := 15 }
    s.pc.getLsbD 0 = false ∧ s.bsr = 15 ∧ s.cfg.admitted = true ∧ (hardware []).cfg.admitted = false := by decide

/-- The frames: an instruction that stores to RAM, one that writes WREG, one that pushes, and that none of them resets
the device or restores the shadows. -/
theorem witness_frames :
    (∃ t, exec (.addwf 0x20 .f .access) loaded = .next t) ∧ storeLoc (.addwf 0x20 .f .access) loaded = some (.ram 0x020) ∧
    resetsDevice (.addwf 0x20 .f .access) loaded = false ∧ (Instr.addwf 0x20 .f .access).restoresShadow = false ∧
    (∃ t, exec .push { loaded with sp := 30 } = .next t) ∧ resetsDevice .push { loaded with sp := 30 } = false ∧
    (∃ t, exec (.movff 0x020 0xFE8) loaded = .next t) ∧ storeLoc (.movff 0x020 0xFE8) loaded = some (.reg .wreg) ∧
    resetsDevice .pop { hardware [] with sp := 1 } = false ∧ resetsDevice .pop (hardware []) = true ∧
    fsrNum 2 = some .f2 ∧ (∀ a ∈ namedAddrs (.addwf 0x20 .f .access) loaded, movesFsr .f2 a = false) :=
  ⟨next_of (by decide), by decide, by decide, by decide, next_of (by decide), by decide, next_of (by decide), by decide,
    by decide, by decide, by decide, by decide⟩

/-- InterruptEntry, InterruptThenReturnRestores: each priority with one place left; then the stack full, in the admitted
model, with the stack's reset (filled and full), and without it. -/
theorem witness_interrupt :
    let h : State := { machine [] with gieh := true, sp := 30, env := [[.request ⟨false, .high⟩]] }
    let l : State := { h with
      giel := true, rcon := { State.reset.rcon with ipen := true }, env := [[.request ⟨true, .low⟩]] }
    (h.runState = .running ∧ resetDue h = none ∧ insideSkip h.arrive = false ∧ interruptDue h.arrive = some .high ∧
      h.pc.getLsbD 0 = false ∧ roomToPush h = true ∧ ∃ t, step h = .next t) ∧
    (resetDue l = none ∧ insideSkip l.arrive = false ∧ interruptDue l.arrive = some .low ∧ roomToPush l = true ∧
      ∃ t, step l = .next t) ∧
    (h.cfg.admitted = true ∧ h.cfg.stackDepth ≤ 31 ∧ pushResets { h with cfg := {} } = true ∧
      pushResets { h with cfg := {}, sp := 31 } = true ∧ ({ stvren := false } : Config).admitted = false ∧
      interruptDue ({ h with cfg := { stvren := false }, sp := 31 } : State).arrive = some .high) :=
  ⟨⟨by decide, by decide, by decide, by decide, by decide, by decide, next_of (by decide)⟩,
    ⟨by decide, by decide, by decide, by decide, next_of (by decide)⟩, by decide⟩

/-- SleepAndWake, WatchdogTimeoutResets, ExternalResets: each kind of move, the watchdog on and off. -/
theorem witness_moves :
    let asleep : State := { machine [] with runState := .sleeping }
    let awake : State := { machine [] with cfg := { wdten := true }, env := [[.wdtTimeout]] }
    (asleep.runState = .sleeping ∧ asleep.env = [] ∧ asleep.requests = {} ∧ .powerOn ∉ asleep.movesNow ∧
      .masterClear ∉ asleep.movesNow ∧ wdtExpires asleep = false ∧ asleep.arrive.requests = {} ∧
      ({ asleep with env := [[.request ⟨true, .low⟩]] } : State).arrive.requests ≠ {}) ∧
    (awake.runState = .running ∧ awake.cfg.wdten = true ∧ .wdtTimeout ∈ awake.movesNow ∧ .powerOn ∉ awake.movesNow ∧
      .masterClear ∉ awake.movesNow ∧ awake.wdtCounter = 0 ∧ (machine []).cfg.wdten = false ∧
      interruptDue awake.arrive = none ∧ ({ awake with wdtCounter := 1 } : State).wdtCounter ≠ 0) ∧
    .masterClear ∈ ({ awake with env := [[.masterClear]] } : State).movesNow ∧
    .powerOn ∉ ({ awake with env := [[.masterClear]] } : State).movesNow ∧
    .powerOn ∈ ({ awake with env := [[.masterClear, .powerOn]] } : State).movesNow := by decide

/-- The launch premises (R317): met by a loaded image after power-on; not with a hole in it, nor with a request to come. -/
theorem test_admitted_launch :
    let c : Config := { admitted := true }
    let s : State := { State.reset with cfg := c, prog := [(0, 0x03), (1, 0x00)] }
    admittedLaunch c none s = true ∧ admittedLaunch c none { s with prog := [(0, 0x03), (2, 0x00)] } = false ∧
    admittedLaunch c none { s with env := [[], [.request ⟨true, .low⟩]] } = false ∧
    admittedLaunch c (some { s with wreg := 1 }) { s with wreg := 1 } = true := by decide
end Sys2Proof.Tests
end

section
/-! PROOFS. What each instruction that answers has done, as one case list: what it changes by its own rule, what it
stores, and where it resets the device. -/

namespace Sys2Proof.Machine

variable {i : Instr} {s t u w : State} {l : Loc} {f : Byte} {a : Access} {v : Byte}

/-! ### The operand of an instruction, as the instruction names it -/

/-- An instruction with a file operand names the operand's address, reads it, and stores, if it does, to it. -/
theorem fileOperand_locs (h : i.fileOperand = some (f, a)) (s : State) :
    namedAddrs i s = [dataAddr s f a] ∧ sourceLoc i s = operandLoc s f a ∧
      (i.storesToFile = true → storeLoc i s = operandLoc s f a) := by
  cases i <;> cases h <;> exact ⟨rfl, rfl, fun hs => by simp only [storeLoc, hs, if_true]; rfl⟩

theorem operandLoc_of_resolve {r : Resolved} (h : resolveOperand (s.advance 2) f a = .ok r) :
    operandLoc s f a = some r.loc := by
  simp only [operandLoc, h]

/-! ### What an instruction may change by its own rule -/

/-- Flags after an instruction that writes, by its own rule, only those of `w` (10_state.md R54). -/
structure FlagsKept (w : FlagSet) (old new : Flags) : Prop where
  n : w.n = false → new.n = old.n
  ov : w.ov = false → new.ov = old.ov
  z : w.z = false → new.z = old.z
  dc : w.dc = false → new.dc = old.dc
  c : w.c = false → new.c = old.c

theorem FlagsKept.refl (w : FlagSet) (fl : Flags) : FlagsKept w fl fl := by
  constructor <;> intro <;> rfl

/-- `t` is `s` but for pc and what instruction `i` changes by its own rule, its store to a location left out. -/
structure OwnFrame (i : Instr) (s t : State) : Prop where
  pcEven : s.pc.getLsbD 0 = false → t.pc.getLsbD 0 = false
  wreg : i.writesWreg = false → i.restoresShadow = false → t.wreg = s.wreg
  flags : i.restoresShadow = false → FlagsKept i.flagsWritten s.flags t.flags
  bsr : (∀ k, i ≠ .movlb k) → i.restoresShadow = false → t.bsr = s.bsr
  fsr : ∀ m n, fsrNum m = some n → i.writesFsr m = false → (∀ a ∈ namedAddrs i s, movesFsr n a = false) →
    t.fsr n = s.fsr n
  prod : (∀ f a, i ≠ .mulwf f a) → (∀ k, i ≠ .mullw k) → t.prodh = s.prodh ∧ t.prodl = s.prodl
  tblptr : i.isTableOp = false → t.tblptr = s.tblptr
  tablat : i ≠ .tblrd → i ≠ .tblrdPostInc → i ≠ .tblrdPostDec → i ≠ .tblrdPreInc → t.tablat = s.tablat
  latches : sourceLoc i s ≠ some (.reg .pcl) → t.pclath = s.pclath ∧ t.pclatu = s.pclatu
  stack : i.pushes = false → t.stack = s.stack
  entries : ∀ k, k ≠ s.sp.toNat → t.stack[k]? = s.stack[k]?
  sp : i.pushes = false → i.pops = false → t.sp = s.sp
  stkful : i.pushes = false → t.stkful = s.stkful
  stkunf : i.pops = false → t.stkunf = s.stkunf
  shadow : i.savesShadow = false → t.shadow = s.shadow
  enables : (∀ b, i ≠ .retfie b) → t.gieh = s.gieh ∧ t.giel = s.giel
  rcon : t.rcon = { s.rcon with timeOut := t.rcon.timeOut, powerDown := t.rcon.powerDown }
  watchdog : i ≠ .clrwdt → i ≠ .sleep → t.rcon.timeOut = s.rcon.timeOut ∧ t.rcon.powerDown = s.rcon.powerDown ∧
    t.wdtCounter = s.wdtCounter ∧ t.wdtPostscaler = s.wdtPostscaler
  ram : t.ram = s.ram
  hold : i ≠ .tblwt → i ≠ .tblwtPostInc → i ≠ .tblwtPostDec → i ≠ .tblwtPreInc → t.hold = s.hold
  holdWrite : t.hold = s.hold ∨ ∃ k x, t.hold = s.hold.write (k % s.cfg.holdBytes) x
  runState : i ≠ .sleep → t.runState = s.runState
  skipped : i.maySkip = false → t.skipped = s.skipped
  requests : t.requests = s.requests
  prog : t.prog = s.prog
  cfg : t.cfg = s.cfg
  env : t.env = s.env

theorem OwnFrame.refl (i : Instr) (s : State) : OwnFrame i s s where
  pcEven h := h
  wreg _ _ := rfl
  flags _ := FlagsKept.refl ..
  bsr _ _ := rfl
  fsr _ _ _ _ _ := rfl
  prod _ _ := ⟨rfl, rfl⟩
  tblptr _ := rfl
  tablat _ _ _ _ := rfl
  latches _ := ⟨rfl, rfl⟩
  stack _ := rfl
  entries _ _ := rfl
  sp _ _ := rfl
  stkful _ := rfl
  stkunf _ := rfl
  shadow _ := rfl
  enables _ := ⟨rfl, rfl⟩
  rcon := rfl
  watchdog _ _ := ⟨rfl, rfl, rfl, rfl⟩
  ram := rfl
  hold _ _ _ _ := rfl
  holdWrite := .inl rfl
  runState _ := rfl
  skipped _ := rfl
  requests := rfl
  prog := rfl
  cfg := rfl
  env := rfl

theorem OwnFrame.setPc (h : OwnFrame i s u) (p : ProgAddr) : OwnFrame i s (u.setPc p) :=
  { h with pcEven := fun _ => evenAddr_bit0 p }

/-- Moving past the instruction's words. -/
theorem OwnFrame.advance (i : Instr) (s : State) (n : ProgAddr) : OwnFrame i s (s.advance n) :=
  (OwnFrame.refl i s).setPc _

theorem OwnFrame.skipIf (h : OwnFrame i s u) (hi : i.maySkip = true) (b : Bool) : OwnFrame i s (u.skipIf b) :=
  { h with
    pcEven := fun _ => evenAddr_bit0 _
    skipped := fun h' => absurd (hi.symm.trans h') Bool.noConfusion }

theorem OwnFrame.setWreg (h : OwnFrame i s u) (hi : i.writesWreg = true) (x : Byte) :
    OwnFrame i s { u with wreg := x } :=
  { h with wreg := fun h' => absurd (hi.symm.trans h') Bool.noConfusion }

theorem OwnFrame.setFlags (h : OwnFrame i s u) {fl : Flags} (hf : FlagsKept i.flagsWritten s.flags fl) :
    OwnFrame i s { u with flags := fl } :=
  { h with flags := fun _ => hf }

/-- An FSR that the instruction names by number (10_state.md R32). -/
theorem OwnFrame.setFsr (h : OwnFrame i s u) {n : FsrNum} (hi : ∀ m, fsrNum m = some n → i.writesFsr m = true)
    (x : DataAddr) : OwnFrame i s (u.setFsr n x) := by
  have hfsr : ∀ m k, fsrNum m = some k → i.writesFsr m = false → (∀ a ∈ namedAddrs i s, movesFsr k a = false) →
      (u.setFsr n x).fsr k = s.fsr k := by
    intro m k hm hw ha
    by_cases hn : n = k
    · subst hn
      exact absurd ((hi m hm).symm.trans hw) Bool.noConfusion
    · rw [State.fsr_setFsr, if_neg hn]
      exact h.fsr m k hm hw ha
  cases n <;> exact { h with fsr := hfsr }

/-! #### The operand read -/

/-- Reaching and reading an operand, from pc past the instruction, changes FSRs and latches only. -/
theorem OwnFrame.of_moves {p : ProgAddr} (h : MovesOnly (s.setPc p) u)
    (hfsr : ∀ m n, fsrNum m = some n → i.writesFsr m = false → (∀ a ∈ namedAddrs i s, movesFsr n a = false) →
      u.fsr n = s.fsr n)
    (hl : sourceLoc i s ≠ some (.reg .pcl) → u.pclath = s.pclath ∧ u.pclatu = s.pclatu) : OwnFrame i s u := by
  have hb : OwnFrame i s (s.setPc p) := (OwnFrame.refl i s).setPc p
  rw [h] at hfsr hl ⊢
  exact { hb with fsr := hfsr, latches := hl }

theorem OwnFrame.of_resolve {r : Resolved} (hf : i.fileOperand = some (f, a))
    (h : resolveOperand (s.advance 2) f a = .ok r) : OwnFrame i s r.st := by
  obtain ⟨hr, -⟩ := resolveOperand_ok h
  refine OwnFrame.of_moves (resolve_moves hr) (fun m n _ _ ha => ?_) fun _ => ?_
  · rw [(fileOperand_locs hf s).1, List.forall_mem_singleton] at ha
    rw [resolve_fsr hr (by simpa using ha)]
    exact State.fsr_setPc ..
  · exact (resolve_latches hr :)

theorem OwnFrame.of_read (hf : i.fileOperand = some (f, a)) (h : readOperand (s.advance 2) f a = .ok ⟨l, v, u⟩) :
    OwnFrame i s u := by
  obtain ⟨hn, hs, -⟩ := fileOperand_locs hf s
  refine OwnFrame.of_moves (readOperand_moves h) (fun m n _ _ ha => ?_) fun hp => ?_
  · rw [hn, List.forall_mem_singleton] at ha
    rw [readOperand_fsr h (by simpa using ha)]
    exact State.fsr_setPc ..
  · obtain ⟨st, hr, -⟩ := readOperand_ok h
    rw [hs, operandLoc_of_resolve hr] at hp
    have hl : l ≠ .reg .pcl := fun hl => hp (by rw [hl])
    exact (readOperand_latches h hl :)

/-! ### Storing to a location -/

/-- `t` is `s` after a store to `l`: the frame of the write, with the RAM as data. -/
structure Stores (s : State) (l : Loc) (t : State) : Prop extends WriteFrame s l t where
  pcEven : s.pc.getLsbD 0 = false → t.pc.getLsbD 0 = false
  ramWrite : t.ram = s.ram ∨ ∃ a x, l = .ram a ∧ t.ram = s.ram.write a.toNat x

theorem Stores.refl (s : State) (l : Loc) : Stores s l s :=
  { writeFrame_refl s l with pcEven := fun h => h, ramWrite := .inl rfl }

/-- Only a write of PCL moves pc, and it keeps it even. -/
theorem locWrite_pcEven (h : locWrite s l v = .ok t) (hp : s.pc.getLsbD 0 = false) : t.pc.getLsbD 0 = false := by
  by_cases hl : l = .reg .pcl
  · subst hl
    cases h
    exact evenAddr_bit0 _
  · rw [(locWrite_frame h).pc hl, hp]

/-- Only a write of a RAM byte changes the RAM. -/
theorem locWrite_ram (h : locWrite s l v = .ok t) :
    t.ram = s.ram ∨ ∃ a x, l = .ram a ∧ t.ram = s.ram.write a.toNat x := by
  cases l with
  | ram a => cases h; exact .inr ⟨a, v, rfl, rfl⟩
  | null => cases h; exact .inl rfl
  | reg r =>
    left
    cases r
    case tosu | tosh | tosl =>
      rw [tosWrite_ok h, State.setTos_ram]
    case stkptr =>
      simp only [locWrite, sfrWrite] at h
      split at h <;> cases h
      rfl
    case intcon =>
      simp only [locWrite, sfrWrite] at h
      split at h <;> cases h
      rfl
    case fsrh n => cases h; exact State.setFsr_ram ..
    case fsrl n => cases h; exact State.setFsr_ram ..
    all_goals cases h; rfl

theorem Stores.of_write (h : locWrite s l v = .ok t) : Stores s l t :=
  { locWrite_frame h with pcEven := locWrite_pcEven h, ramWrite := locWrite_ram h }

theorem Stores.skipIf (h : Stores s l t) (b : Bool) : Stores (s.skipIf b) l (t.skipIf b) :=
  { h with
    pcEven := fun _ => evenAddr_bit0 _
    pc := fun hl => by simp only [State.skipIf_pc, h.pc hl]
    skipped := rfl }

/-! ### Everything an instruction can do -/

/-- Everything an instruction that answers can have done: changes by its own rule; these and a store to its location;
or, from a state with such changes, a device reset (10_state.md R40, R310). -/
inductive Effect (i : Instr) (s t : State) : Prop where
  | own (h : OwnFrame i s t)
  | store (l : Loc) (u : State) (hl : storeLoc i s = some l) (ho : OwnFrame i s u) (hs : Stores u l t)
  | reset (k : ResetKind) (u : State) (hr : resetsDevice i s = true) (hk : k ≠ .powerOn) (ho : OwnFrame i s u)
      (ht : t = deviceReset k u)

/-- Without a reset: a change by the instruction's rule and then a store, `Null` standing for none. -/
theorem Effect.without_reset (h : Effect i s t) (hr : resetsDevice i s = false) :
    ∃ l u, (storeLoc i s = some l ∨ l = .null) ∧ OwnFrame i s u ∧ Stores u l t := by
  cases h with
  | own ho => exact ⟨.null, t, .inr rfl, ho, Stores.refl t .null⟩
  | store l u hl ho hs => exact ⟨l, u, .inl hl, ho, hs⟩
  | reset k u hr' => exact absurd (hr'.symm.trans hr) Bool.noConfusion

/-! #### Instructions with a file operand -/

theorem storeLoc_of_read (hf : i.fileOperand = some (f, a)) (hs : i.storesToFile = true)
    (h : readOperand (s.advance 2) f a = .ok ⟨l, v, u⟩) : storeLoc i s = some l := by
  obtain ⟨st, hr, -⟩ := readOperand_ok h
  rw [(fileOperand_locs hf s).2.2 hs, operandLoc_of_resolve hr]

/-- A store of a result and its flags: STATUS takes the flags only (R51). -/
theorem storeWithFlags_effect {r : AluResult} (hl : storeLoc i s = some l) (ho : OwnFrame i s u)
    (hk : FlagsKept i.flagsWritten s.flags r.flags) (h : storeWithFlags u l r = .ok t) : Effect i s t := by
  rcases storeWithFlags_ok h with ⟨-, -, rfl⟩ | ⟨-, hw⟩
  · exact .own (ho.setFlags hk)
  · exact .store l _ hl (ho.setFlags hk) (.of_write hw)

variable {d : Dest}

theorem flagOp_effect {op : Byte → Byte → Flags → AluResult} (hf : i.fileOperand = some (f, a))
    (hw : i.writesWreg = decide (d = .w)) (hs : i.storesToFile = decide (d = .f))
    (hk : ∀ x y fl, FlagsKept i.flagsWritten fl (op x y fl).flags) (h : flagOp s f d a op = .next t) :
    Effect i s t := by
  obtain ⟨l, v, u, hr, hd⟩ := flagOp_next h
  have ho : OwnFrame i s u := .of_read hf hr
  have hfl : u.flags = s.flags := (readOperand_moves hr).flags
  have hk' := hk v u.wreg u.flags
  rw [hfl] at hk' hd
  rcases destWithFlags_ok hd with ⟨rfl, rfl⟩ | ⟨rfl, hst⟩
  · exact .own ((ho.setFlags hk').setWreg hw _)
  · exact storeWithFlags_effect (storeLoc_of_read hf hs hr) ho hk' hst

/-- A byte put where `d` says, from a state with the instruction's own changes. -/
theorem destPlain_effect {x : Byte} (hf : i.fileOperand = some (f, a)) (hw : i.writesWreg = decide (d = .w))
    (hs : i.storesToFile = decide (d = .f)) (hr : readOperand (s.advance 2) f a = .ok ⟨l, v, u⟩)
    (h : destPlain u d l x = .ok t) : OwnFrame i s t ∨ (storeLoc i s = some l ∧ OwnFrame i s u ∧ Stores u l t) := by
  have ho : OwnFrame i s u := .of_read hf hr
  rcases destPlain_ok h with ⟨rfl, rfl⟩ | ⟨rfl, hst⟩
  · exact .inl (ho.setWreg hw _)
  · exact .inr ⟨storeLoc_of_read hf hs hr, ho, .of_write hst⟩

theorem plainOp_effect {op : Byte → Byte} (hf : i.fileOperand = some (f, a)) (hw : i.writesWreg = decide (d = .w))
    (hs : i.storesToFile = decide (d = .f)) (h : plainOp s f d a op = .next t) : Effect i s t := by
  obtain ⟨l, v, u, hr, hd⟩ := plainOp_next h
  rcases destPlain_effect hf hw hs hr hd with ho | ⟨hl, ho, hst⟩
  · exact .own ho
  · exact .store l u hl ho hst

theorem countSkip_effect {op : Byte → Byte} {skips : Byte → Bool} (hf : i.fileOperand = some (f, a))
    (hw : i.writesWreg = decide (d = .w)) (hs : i.storesToFile = decide (d = .f)) (hi : i.maySkip = true)
    (h : countSkip s f d a op skips = .next t) : Effect i s t := by
  obtain ⟨l, v, u, w, hr, -, hd, rfl⟩ := countSkip_next h
  rcases destPlain_effect hf hw hs hr hd with ho | ⟨hl, ho, hst⟩
  · exact .own (ho.skipIf hi _)
  · exact .store l _ hl (ho.skipIf hi _) (hst.skipIf _)

theorem testSkip_effect {skips : Byte → Byte → Bool} (hf : i.fileOperand = some (f, a)) (hi : i.maySkip = true)
    (h : testSkip s f a skips = .next t) : Effect i s t := by
  obtain ⟨l, v, u, hr, rfl⟩ := testSkip_next h
  exact .own ((OwnFrame.of_read hf hr).skipIf hi _)

theorem storeLoc_of_resolve {r : Resolved} (hf : i.fileOperand = some (f, a)) (hs : i.storesToFile = true)
    (h : resolveOperand (s.advance 2) f a = .ok r) : storeLoc i s = some r.loc := by
  rw [(fileOperand_locs hf s).2.2 hs, operandLoc_of_resolve h]

/-- A byte written to an operand that is not read. -/
theorem writeOnly_effect {x : State → Byte} (hf : i.fileOperand = some (f, a)) (hs : i.storesToFile = true)
    (h : (writeOnly s f a fun t l => locWrite t l (x t)) = .next t) : Effect i s t := by
  obtain ⟨l, u, hr, hw⟩ := writeOnly_next h
  exact .store l u (storeLoc_of_resolve hf hs hr) (OwnFrame.of_resolve hf hr :) (.of_write hw)

theorem clrf_effect (h : execClrf f a s = .next t) : Effect (.clrf f a) s t := by
  obtain ⟨l, u, hr, hw⟩ := writeOnly_next h
  have ho := OwnFrame.of_resolve (i := .clrf f a) rfl hr
  have hfl : u.flags = s.flags := (resolve_moves (resolveOperand_ok hr).1).flags
  refine storeWithFlags_effect (storeLoc_of_resolve rfl rfl hr) ho ?_ hw
  rw [hfl]
  exact { FlagsKept.refl _ s.flags with z := nofun }

theorem mulwf_effect (h : execMulwf f a s = .next t) : Effect (.mulwf f a) s t := by
  obtain ⟨l, v, u, x, y, hr, rfl⟩ := mulwf_next h
  have ho : OwnFrame (.mulwf f a) s u := .of_read rfl hr
  exact .own { ho with prod := fun h' => absurd rfl (h' f a) }

/-! #### Moves between locations -/

theorem movff_effect {fs fd : DataAddr} (h : execMovff fs fd s = .next t) : Effect (.movff fs fd) s t := by
  obtain ⟨x, v, u, z, hx, hy, hz, -, hw⟩ := movff_next h
  have hl : storeLoc (.movff fs fd) s = some z.loc := by simp only [storeLoc, moveDest, hx, hy, hz]
  have hsrc : sourceLoc (.movff fs fd) s = some x.loc := by simp only [sourceLoc, hx]
  refine .store z.loc z.st hl ?_ (.of_write hw)
  refine .of_moves (((resolve_moves hx).trans (locRead_moves hy)).trans (resolve_moves hz)) (fun m n _ _ ha => ?_) ?_
  · simp only [namedAddrs, List.forall_mem_cons] at ha
    obtain ⟨h1, h2, -⟩ := ha
    rw [resolve_fsr hz h2, locRead_fsr hy, resolve_fsr hx h1]
    exact State.fsr_setPc ..
  · intro hp
    have hu : u = x.st := (locRead_ok hy).elim (fun h' => h'.2) fun h' => absurd (hsrc.trans (congrArg some h'.1)) hp
    have h1 := resolve_latches hx
    have h2 := resolve_latches hz
    rw [hu] at h2
    exact ⟨h2.1.trans h1.1, h2.2.trans h1.2⟩

/-- Reading the source of `MOVSF` or `MOVSS`, pc past the two words. -/
theorem indexedRead_frame {zs : BitVec 7} (hl : resolveIndexed (s.advance 4) zs = .ok l)
    (hi : sourceLoc i s = indexedLoc (s.advance 4) zs) (h : locRead .two (s.advance 4) l = .ok (v, u)) :
    OwnFrame i s u := by
  have hsrc : sourceLoc i s = some l := by simp only [hi, indexedLoc, hl]
  refine .of_moves (locRead_moves h) (fun m n _ _ _ => ?_) fun hp => ?_
  · exact (locRead_fsr h n).trans (State.fsr_setPc ..)
  · rcases locRead_ok h with ⟨-, rfl⟩ | ⟨hl', -⟩
    · exact ⟨rfl, rfl⟩
    · exact absurd (hsrc.trans (congrArg some hl')) hp

theorem movsf_effect {zs : BitVec 7} {fd : DataAddr} (h : execMovsf zs fd s = .next t) :
    Effect (.movsf zs fd) s t := by
  obtain ⟨-, l, v, u, z, hl, hy, hz, -, hw⟩ := movsf_next h
  have hdst : storeLoc (.movsf zs fd) s = some z.loc := by simp only [storeLoc, indexedLoc, hl, moveDest, hy, hz]
  have ho : OwnFrame (.movsf zs fd) s u := indexedRead_frame hl rfl hy
  refine .store z.loc z.st hdst ?_ (.of_write hw)
  refine .of_moves ((locRead_moves hy).trans (resolve_moves hz)) (fun m n hm hi ha => ?_) fun hp => ?_
  · have hn : movesFsr n fd = false := ha fd (List.mem_singleton_self fd)
    exact (resolve_fsr hz hn).trans (ho.fsr m n hm hi ha)
  · obtain ⟨h1, h2⟩ := resolve_latches hz
    exact ⟨h1.trans (ho.latches hp).1, h2.trans (ho.latches hp).2⟩

theorem movss_effect {zs zd : BitVec 7} (h : execMovss zs zd s = .next t) : Effect (.movss zs zd) s t := by
  obtain ⟨-, l, v, u, m, hl, hy, hm, -, hw⟩ := movss_next h
  have hu := locRead_moves hy
  have hf : u.fsr2 = (s.advance 4).fsr2 := locRead_fsr hy .f2
  have hdst : storeLoc (.movss zs zd) s = some m := by
    simp only [storeLoc, indexedLoc, ← resolveIndexed_congr hu.cfg hf, hm]
  exact .store m u hdst (indexedRead_frame hl rfl hy) (.of_write hw)

/-- `PUSHL` moves FSR2 after its store; a store to FSR2 itself apart, the order makes no difference. -/
theorem pushl_effect {k : Byte} (h : execPushl k s = .next t) : Effect (.pushl k) s t := by
  obtain ⟨-, -, l, u, hl, hw, rfl⟩ := pushl_next h
  have hdst : storeLoc (.pushl k) s = some l := by simp only [storeLoc, hl]
  have hs := Stores.of_write hw
  have ho : OwnFrame (.pushl k) s ((s.advance 2).setFsr .f2 (s.fsr2 - 1)) :=
    (OwnFrame.advance _ s 2).setFsr (fun m hm => ?_) _
  · refine .store l _ hdst ho { hs with fsr := fun n h1 h2 => ?_ }
    have hn := hs.fsr n h1 h2
    cases n
    · exact hn
    · exact hn
    · exact congrArg (· - 1) hn
  · have hm2 : ∀ m : BitVec 2, fsrNum m = some .f2 → m = 2 := by decide
    exact decide_eq_true (hm2 m hm)

/-! #### The return stack -/

theorem OwnFrame.setStkful (h : OwnFrame i s u) (hi : i.pushes = true) : OwnFrame i s { u with stkful := true } :=
  { h with stkful := fun h' => absurd (hi.symm.trans h') Bool.noConfusion }

theorem OwnFrame.setStkunf (h : OwnFrame i s u) (hi : i.pops = true) : OwnFrame i s { u with stkunf := true } :=
  { h with stkunf := fun h' => absurd (hi.symm.trans h') Bool.noConfusion }

/-- A push from a state whose SP is still that of `s` changes the entry at SP at most. -/
theorem OwnFrame.pushed (h : OwnFrame i s u) (hi : i.pushes = true) (hsp : u.sp = s.sp) (x : ProgAddr) :
    OwnFrame i s (u.pushed x) := by
  have hne {p : Prop} : i.pushes = false → p := fun h' => absurd (hi.symm.trans h') Bool.noConfusion
  rw [State.pushed_eq]
  refine { h with stack := hne, sp := hne, stkful := hne, entries := fun k hk => ?_ }
  rw [Vector.getElem?_setIfInBounds, hsp, if_neg (Ne.symm hk)]
  exact h.entries k hk

theorem OwnFrame.popped (h : OwnFrame i s u) (hi : i.pops = true) : OwnFrame i s { u with sp := u.sp - 1 } :=
  { h with sp := fun _ h' => absurd (hi.symm.trans h') Bool.noConfusion }

theorem resetsDevice_of_push (hi : i.pushes = true) (h : pushResets s = true) : resetsDevice i s = true := by
  simp only [resetsDevice, hi, h, Bool.and_true, Bool.or_true, Bool.true_or]

theorem resetsDevice_of_pop (hi : i.pops = true) (h0 : s.sp = 0) (ha : s.cfg.admitted = false)
    (hv : s.cfg.stvren = true) : resetsDevice i s = true := by
  simp [resetsDevice, hi, h0, ha, hv]

/-- A pushing instruction, whose continuation changes what the instruction may change. -/
theorem pushThen_effect {n x : ProgAddr} {k : State → Result} (hi : i.pushes = true)
    (hk : ∀ w, OwnFrame i s w → k w = .next t → OwnFrame i s t) (h : pushThen (s.advance n) x k = .next t) :
    Effect i s t := by
  have ho := OwnFrame.advance i s n
  have hfull := ho.setStkful hi
  have hpushed := ho.pushed hi rfl x
  rcases pushThen_next h with ⟨hr, rfl | rfl⟩ | ⟨-, -, -, hn⟩ | ⟨-, hn⟩
  · exact .reset .stack _ (resetsDevice_of_push hi hr) (by decide) hfull rfl
  · exact .reset .stack _ (resetsDevice_of_push hi hr) (by decide) hpushed rfl
  · exact .own (hk _ hfull hn)
  · exact .own (hk _ hpushed hn)

/-- A popping instruction, `u` the state at the pop, whose continuation changes what the instruction may change. -/
theorem popThen_effect {k : ProgAddr → State → Result} (hi : i.pops = true) (ho : OwnFrame i s u) (hsp : u.sp = s.sp)
    (hk : ∀ x w, OwnFrame i s w → k x w = .next t → OwnFrame i s t) (h : popThen u k = .next t) : Effect i s t := by
  have hcfg := ho.cfg
  rcases popThen_next h with ⟨h0, ha, hv, rfl⟩ | ⟨-, -, -, hn⟩ | ⟨-, hn⟩
  · rw [hsp] at h0
    rw [hcfg] at ha hv
    exact .reset .stack _ (resetsDevice_of_pop hi h0 ha hv) (by decide) (ho.setStkunf hi) rfl
  · exact .own (hk _ _ ((ho.setStkunf hi).setPc 0) hn)
  · exact .own (hk _ _ (ho.popped hi) hn)

theorem OwnFrame.saveShadowIf (h : OwnFrame i s u) {b : Bool} (hi : i.savesShadow = b) :
    OwnFrame i s (u.saveShadowIf b) := by
  cases b with
  | false => exact h
  | true => exact { h with shadow := fun h' => absurd (hi.symm.trans h') Bool.noConfusion }

theorem OwnFrame.restoreShadowIf (h : OwnFrame i s u) {b : Bool} (hi : i.restoresShadow = b) :
    OwnFrame i s (u.restoreShadowIf b) := by
  cases b with
  | false => exact h
  | true =>
    have hne {p : Prop} : i.restoresShadow = false → p := fun h' => absurd (hi.symm.trans h') Bool.noConfusion
    exact { h with wreg := fun _ => hne, flags := hne, bsr := fun _ => hne }

theorem OwnFrame.reenable {b : Bool} (h : OwnFrame (.retfie b) s u) : OwnFrame (.retfie b) s u.reenable := by
  unfold State.reenable
  split <;> exact { h with enables := fun h' => absurd rfl (h' b) }

/-! #### Table operations -/

theorem tableRead_effect {p q : TblAddr} (hi : i = .tblrd ∨ i = .tblrdPostInc ∨ i = .tblrdPostDec ∨ i = .tblrdPreInc)
    (h : tableOp s tableRead p q = .next t) : Effect i s t := by
  obtain ⟨u, hu, rfl⟩ := tableOp_next h
  obtain ⟨-, x, -, rfl⟩ := tableRead_ok hu
  refine .own { OwnFrame.advance i s 2 with tblptr := fun h' => ?_, tablat := fun h1 h2 h3 h4 => ?_ }
  · rcases hi with rfl | rfl | rfl | rfl <;> cases h'
  · rcases hi with h' | h' | h' | h'
    exacts [absurd h' h1, absurd h' h2, absurd h' h3, absurd h' h4]

theorem tableWrite_effect {p q : TblAddr} (hi : i = .tblwt ∨ i = .tblwtPostInc ∨ i = .tblwtPostDec ∨ i = .tblwtPreInc)
    (h : tableOp s tableWrite p q = .next t) : Effect i s t := by
  obtain ⟨u, hu, rfl⟩ := tableOp_next h
  obtain ⟨-, rfl⟩ := tableWrite_ok hu
  refine .own { OwnFrame.advance i s 2 with
    tblptr := fun h' => ?_, hold := fun h1 h2 h3 h4 => ?_, holdWrite := .inr ⟨_, _, rfl⟩ }
  · rcases hi with rfl | rfl | rfl | rfl <;> cases h'
  · rcases hi with h' | h' | h' | h'
    exacts [absurd h' h1, absurd h' h2, absurd h' h3, absurd h' h4]

/-! #### Registers and flags -/

theorem FlagsKept.all (fl g : Flags) : FlagsKept { n := true, ov := true, z := true, dc := true, c := true } fl g := by
  constructor <;> intro h <;> cases h

theorem FlagsKept.zn (r : Byte) (fl : Flags) : FlagsKept { n := true, z := true } fl (znFlags r fl).flags :=
  { FlagsKept.refl _ fl with n := nofun, z := nofun }

theorem FlagsKept.rotate (r : Byte) (out : Bool) (fl : Flags) :
    FlagsKept { n := true, z := true, c := true } fl (rotateFlags r out fl).flags :=
  { FlagsKept.refl _ fl with n := nofun, z := nofun, c := nofun }

theorem literalResult_effect {r : AluResult} (hw : i.writesWreg = true) (hk : FlagsKept i.flagsWritten s.flags r.flags)
    (h : literalResult s r = .next t) : Effect i s t := by
  cases h
  exact .own (((OwnFrame.advance i s 2).setFlags hk).setWreg hw _)

theorem branchIf_effect {b : Bool} {n : BitVec 8} (h : branchIf s b n = .next t) : Effect i s t := by
  cases h
  exact .own ((OwnFrame.refl i s).setPc _)

/-- A field names an FSR by one number only. -/
theorem fsrNum_inj {f m : BitVec 2} {n : FsrNum} (hf : fsrNum f = some n) (hm : fsrNum m = some n) : f = m := by
  have h : ∀ f m : BitVec 2, (fsrNum f).isSome = true → fsrNum f = fsrNum m → f = m := by decide
  exact h f m (by rw [hf]; rfl) (hf.trans hm.symm)

theorem setFsr_effect {p : ProgAddr} {f : BitVec 2} {n : FsrNum} {x : DataAddr} (hi : i.writesFsr f = true)
    (hf : fsrNum f = some n) : Effect i s ((s.advance p).setFsr n x) :=
  .own ((OwnFrame.advance i s p).setFsr (fun _ hm => fsrNum_inj hf hm ▸ hi) x)

/-- What each instruction that answers has done. -/
theorem exec_effect (h : exec i s = .next t) : Effect i s t := by
  cases i <;> simp only [exec] at h
  case addwf f d a => exact flagOp_effect rfl rfl rfl (fun _ _ fl => .all fl _) h
  case addwfc f d a => exact flagOp_effect rfl rfl rfl (fun _ _ fl => .all fl _) h
  case andwf f d a => exact flagOp_effect rfl rfl rfl (fun _ _ fl => .zn _ fl) h
  case clrf f a => exact clrf_effect h
  case comf f d a => exact flagOp_effect rfl rfl rfl (fun _ _ fl => .zn _ fl) h
  case cpfseq | cpfsgt | cpfslt | tstfsz | btfsc | btfss => exact testSkip_effect rfl rfl h
  case decf f d a => exact flagOp_effect rfl rfl rfl (fun _ _ fl => .all fl _) h
  case decfsz | dcfsnz | incfsz | infsnz => exact countSkip_effect rfl rfl rfl rfl h
  case incf f d a => exact flagOp_effect rfl rfl rfl (fun _ _ fl => .all fl _) h
  case iorwf f d a => exact flagOp_effect rfl rfl rfl (fun _ _ fl => .zn _ fl) h
  case movf f d a => exact flagOp_effect rfl rfl rfl (fun _ _ fl => .zn _ fl) h
  case movff fs fd => exact movff_effect h
  case movwf f a => exact writeOnly_effect (x := State.wreg) rfl rfl h
  case mulwf f a => exact mulwf_effect h
  case negf f a => exact flagOp_effect (d := .f) rfl rfl rfl (fun _ _ fl => .all fl _) h
  case rlcf f d a => exact flagOp_effect rfl rfl rfl (fun _ _ fl => .rotate _ _ fl) h
  case rlncf f d a => exact flagOp_effect rfl rfl rfl (fun _ _ fl => .zn _ fl) h
  case rrcf f d a => exact flagOp_effect rfl rfl rfl (fun _ _ fl => .rotate _ _ fl) h
  case rrncf f d a => exact flagOp_effect rfl rfl rfl (fun _ _ fl => .zn _ fl) h
  case setf f a => exact writeOnly_effect (x := fun _ => 0xFF) rfl rfl h
  case subfwb f d a => exact flagOp_effect rfl rfl rfl (fun _ _ fl => .all fl _) h
  case subwf f d a => exact flagOp_effect rfl rfl rfl (fun _ _ fl => .all fl _) h
  case subwfb f d a => exact flagOp_effect rfl rfl rfl (fun _ _ fl => .all fl _) h
  case swapf f d a => exact plainOp_effect rfl rfl rfl h
  case xorwf f d a => exact flagOp_effect rfl rfl rfl (fun _ _ fl => .zn _ fl) h
  case bcf | bsf | btg => exact plainOp_effect (d := .f) rfl rfl rfl h
  case bc | bn | bnc | bnn | bnov | bnz | bov | bz => exact branchIf_effect h
  case bra n => cases h; exact .own ((OwnFrame.refl _ s).setPc _)
  case call k fast =>
    refine pushThen_effect rfl (fun w hw hk => ?_) h
    cases hk
    exact (hw.saveShadowIf rfl).setPc _
  case clrwdt =>
    cases h
    exact .own { OwnFrame.advance .clrwdt s 2 with rcon := rfl, watchdog := fun h' => absurd rfl h' }
  case daw =>
    cases h
    have hk : FlagsKept Instr.daw.flagsWritten s.flags
        { s.flags with c := s.flags.c || decide (255 < decimalAdjust s.wreg s.flags.dc s.flags.c) } :=
      { FlagsKept.refl _ s.flags with c := nofun }
    exact .own (((OwnFrame.advance .daw s 2).setFlags hk).setWreg rfl _)
  case goto k => cases h; exact .own ((OwnFrame.refl _ s).setPc _)
  case nop => cases h; exact .own (.advance _ s 2)
  case nopSecond x => cases h; exact .own (.advance _ s 2)
  case pop => exact popThen_effect rfl (.advance _ s 2) rfl (fun x w hw hk => by cases hk; exact hw) h
  case push => exact pushThen_effect rfl (fun w hw hk => by cases hk; exact hw) h
  case rcall n => exact pushThen_effect rfl (fun w hw hk => by cases hk; exact hw.setPc _) h
  case reset => cases h; exact .reset .software s rfl (by decide) (.refl _ s) rfl
  case retfie fast =>
    unfold execRetfie returnFromInterrupt at h
    refine popThen_effect rfl (.refl _ s) rfl (fun x w hw hk => ?_) h
    cases hk
    exact (hw.restoreShadowIf rfl).reenable.setPc _
  case retlw k =>
    exact popThen_effect rfl ((OwnFrame.refl _ s).setWreg rfl k) rfl (fun x w hw hk => by cases hk; exact hw.setPc _) h
  case ret fast =>
    refine popThen_effect rfl (.refl _ s) rfl (fun x w hw hk => ?_) h
    cases hk
    exact (hw.restoreShadowIf rfl).setPc _
  case sleep =>
    cases h
    exact .own { OwnFrame.advance .sleep s 2 with
      rcon := rfl, watchdog := fun _ h' => absurd rfl h', runState := fun h' => absurd rfl h' }
  case addlw k => exact literalResult_effect rfl (.all ..) h
  case andlw k => exact literalResult_effect rfl (.zn ..) h
  case iorlw k => exact literalResult_effect rfl (.zn ..) h
  case sublw k => exact literalResult_effect rfl (.all ..) h
  case xorlw k => exact literalResult_effect rfl (.zn ..) h
  case lfsr f k =>
    obtain ⟨n, hn, rfl⟩ := lfsr_next h
    exact setFsr_effect (decide_eq_true rfl) hn
  case movlb k =>
    cases h
    exact .own { OwnFrame.advance (.movlb k) s 2 with bsr := fun h' => absurd rfl (h' k) }
  case movlw k => cases h; exact .own ((OwnFrame.advance _ s 2).setWreg rfl k)
  case mullw k =>
    cases h
    exact .own { OwnFrame.advance (.mullw k) s 2 with prod := fun _ h' => absurd rfl (h' k) }
  case tblrd | tblrdPostInc | tblrdPostDec | tblrdPreInc => exact tableRead_effect (by decide) h
  case tblwt | tblwtPostInc | tblwtPostDec | tblwtPreInc => exact tableWrite_effect (by decide) h
  case addfsr f k =>
    obtain ⟨-, n, hn, rfl⟩ := addfsr_next h
    exact setFsr_effect (decide_eq_true rfl) hn
  case subfsr f k =>
    obtain ⟨-, n, hn, rfl⟩ := subfsr_next h
    exact setFsr_effect (decide_eq_true rfl) hn
  case addulnk k =>
    have ho : OwnFrame (.addulnk k) s { s with fsr2 := s.fsr2 + k.setWidth 12 } :=
      (OwnFrame.refl (.addulnk k) s).setFsr (n := .f2) (fun m hm => decide_eq_true (fsrNum_inj hm rfl)) _
    exact popThen_effect rfl ho rfl (fun x w hw hk => by cases hk; exact hw.setPc _) (requireXinst_next h).2
  case subulnk k =>
    have ho : OwnFrame (.subulnk k) s { s with fsr2 := s.fsr2 - k.setWidth 12 } :=
      (OwnFrame.refl (.subulnk k) s).setFsr (n := .f2) (fun m hm => decide_eq_true (fsrNum_inj hm rfl)) _
    exact popThen_effect rfl ho rfl (fun x w hw hk => by cases hk; exact hw.setPc _) (requireXinst_next h).2
  case callw =>
    exact pushThen_effect rfl (fun w hw hk => by cases hk; exact hw.setPc _) (requireXinst_next h).2
  case movsf zs fd => exact movsf_effect h
  case movss zs zd => exact movss_effect h
  case pushl k => exact pushl_effect h

end Sys2Proof.Machine
end

section
/-! PROOFS. Every step keeps the invariant. -/

namespace Sys2Proof.Machine

variable {i : Instr} {s t u : State} {l : Loc} {f : Byte} {a : Access} {v : Byte}

/-! ### The invariant -/

/-- A state with the same memories, its pc still even. -/
theorem State.Inv.of_same (h : s.Inv) (hpc : t.pc.getLsbD 0 = false) (hram : t.ram = s.ram) (hprog : t.prog = s.prog)
    (hhold : t.hold = s.hold) (hcfg : t.cfg = s.cfg) : t.Inv := by
  obtain ⟨-, hmem⟩ := h
  exact ⟨hpc, by rw [hram, hprog, hhold, hcfg]; exact hmem⟩

/-- A device reset from a state with the same RAM, program and configuration. -/
theorem State.Inv.deviceReset (h : s.Inv) (k : ResetKind) (hram : u.ram = s.ram) (hprog : u.prog = s.prog)
    (hcfg : u.cfg = s.cfg) : (deviceReset k u).Inv := by
  obtain ⟨-, hr, hp, -, h0, hrb, -, hpb⟩ := h
  obtain ⟨hprog', hcfg', -⟩ := deviceReset_kept k u
  have hhold : (Machine.deviceReset k u).hold = [] := by cases k <;> rfl
  have hram' : (Machine.deviceReset k u).ram = s.ram ∨ (Machine.deviceReset k u).ram = [] := by
    cases k
    case powerOn => exact .inr rfl
    all_goals exact .inl hram
  have hpc : (Machine.deviceReset k u).pc.getLsbD 0 = false := by rw [(deviceReset_start k u).1]; rfl
  refine ⟨hpc, ?_, ?_, ?_, ?_, ?_, ?_, ?_⟩
  · rcases hram' with h' | h' <;> rw [h']
    exacts [hr, Memory.wf_nil]
  · rw [hprog', hprog]; exact hp
  · rw [hhold]; exact Memory.wf_nil
  · rw [hcfg', hcfg]; exact h0
  · rw [hcfg', hcfg]
    rcases hram' with h' | h' <;> rw [h']
    exacts [hrb, nofun]
  · rw [hhold]; exact nofun
  · rw [hprog', hprog]; exact hpb

/-- Changes by an instruction's own rule: a table write fills a holding latch that exists. -/
theorem State.Inv.own (h : s.Inv) (ho : OwnFrame i s t) : t.Inv := by
  obtain ⟨hpc, hr, hp, hh, h0, hrb, hhb, hpb⟩ := h
  refine ⟨ho.pcEven hpc, ?_, ?_, ?_, ?_, ?_, ?_, ?_⟩
  · rw [ho.ram]; exact hr
  · rw [ho.prog]; exact hp
  · rcases ho.holdWrite with h' | ⟨k, x, h'⟩ <;> rw [h']
    exacts [hh, Memory.write_wf hh _ _]
  · rw [ho.cfg]; exact h0
  · rw [ho.ram, ho.cfg]; exact hrb
  · rw [ho.cfg]
    rcases ho.holdWrite with h' | ⟨k, x, h'⟩ <;> rw [h']
    exacts [hhb, Memory.write_bound hhb (Nat.mod_lt _ h0) x]
  · rw [ho.prog]; exact hpb

/-- A store, to RAM that exists if it is to RAM. -/
theorem State.Inv.stores (h : s.Inv) (hs : Stores s l t) (hl : ∀ a, l = .ram a → a.toNat < s.cfg.ramBytes) : t.Inv := by
  rcases hs.ramWrite with hram | ⟨a, x, rfl, hram⟩
  · exact h.of_same (hs.pcEven h.1) hram hs.prog hs.hold hs.cfg
  · obtain ⟨hpc, hr, hp, hh, h0, hrb, hhb, hpb⟩ := h
    refine ⟨hs.pcEven hpc, ?_, ?_, ?_, ?_, ?_, ?_, ?_⟩
    · rw [hram]; exact Memory.write_wf hr _ _
    · rw [hs.prog]; exact hp
    · rw [hs.hold]; exact hh
    · rw [hs.cfg]; exact h0
    · rw [hram, hs.cfg]; exact Memory.write_bound hrb (hl a rfl) x
    · rw [hs.hold, hs.cfg]; exact hhb
    · rw [hs.prog]; exact hpb

/-! #### The RAM an instruction stores to exists -/

theorem resolveDirect_ram {x b : DataAddr} (h : resolveDirect s x = .ok (.ram b)) : b.toNat < s.cfg.ramBytes := by
  rcases resolveDirect_ok h with ⟨r, -, hl⟩ | ⟨-, hlt, hl⟩ | ⟨-, -, -, -, hl⟩ <;> cases hl
  exact hlt

theorem resolve_ram {x b : DataAddr} {r : Resolved} (h : resolve s x = .ok r) (hl : r.loc = .ram b) :
    b.toNat < s.cfg.ramBytes := by
  rcases resolve_ok h with ⟨k, n, -, -, ⟨-, hn⟩ | ⟨-, hd⟩⟩ | ⟨-, -, hd⟩
  · cases hl.symm.trans hn
  · exact resolveDirect_ram (hl ▸ hd)
  · exact resolveDirect_ram (hl ▸ hd)

theorem indexedLoc_ram {z : BitVec 7} {b : DataAddr} (h : indexedLoc s z = some (.ram b)) :
    b.toNat < s.cfg.ramBytes := by
  unfold indexedLoc at h
  split at h
  · cases h
  · rename_i l hl
    cases h
    rcases resolveIndexed_ok hl with ⟨-, h'⟩ | ⟨-, hd⟩
    · cases h'
    · exact resolveDirect_ram hd

theorem operandLoc_ram {b : DataAddr} (h : operandLoc s f a = some (.ram b)) : b.toNat < s.cfg.ramBytes := by
  unfold operandLoc at h
  split at h
  · rename_i r hr
    exact resolve_ram (s := s.advance 2) (resolveOperand_ok hr).1 (Option.some.inj h)
  · cases h

/-- The destination of a move, its source resolved in a state with the same configuration. -/
theorem moveDest_ram {src : Except Fault Resolved} {fd b : DataAddr} (h : moveDest src fd = some (.ram b))
    (hc : ∀ x, src = .ok x → x.st.cfg = s.cfg) : b.toNat < s.cfg.ramBytes := by
  unfold moveDest at h
  split at h
  · cases h
  · rename_i x
    split at h
    · cases h
    · rename_i y hy
      split at h
      · cases h
      · rename_i z hz
        have hb := resolve_ram hz (Option.some.inj h)
        rwa [(locRead_moves hy).cfg, hc x rfl] at hb

theorem storeLoc_ram {b : DataAddr} (h : storeLoc i s = some (.ram b)) : b.toNat < s.cfg.ramBytes := by
  unfold storeLoc at h
  split at h
  · exact moveDest_ram h fun x hx => (resolve_moves hx).cfg
  · split at h
    · cases h
    · exact moveDest_ram h fun x hx => by cases hx; rfl
  · exact indexedLoc_ram (s := s.advance 4) h
  · split at h
    · cases h
    · rename_i l hl
      cases h
      exact resolveDirect_ram (s := s.advance 2) hl
  · split at h
    · split at h
      · exact operandLoc_ram h
      · cases h
    · cases h

/-! #### Every step -/

theorem exec_keeps_inv (hi : s.Inv) (h : exec i s = .next t) : t.Inv := by
  cases exec_effect h with
  | own ho => exact hi.own ho
  | store l u hl ho hs =>
    refine (hi.own ho).stores hs fun b hb => ?_
    rw [ho.cfg]
    exact storeLoc_ram (hl.trans (congrArg some hb))
  | reset k u _ _ ho ht =>
    rw [ht]
    exact hi.deviceReset k ho.ram ho.prog ho.cfg

theorem takeInterrupt_keeps_inv {p : Priority} (hi : s.Inv) (h : takeInterrupt p s = .next t) : t.Inv := by
  rcases pushThen_next h with ⟨-, rfl | rfl⟩ | ⟨-, -, -, hn⟩ | ⟨-, hn⟩
  · exact hi.deviceReset .stack rfl rfl rfl
  · exact hi.deviceReset .stack (State.pushed_ram ..) (State.pushed_prog ..) (State.pushed_cfg ..)
  · cases p <;> cases hn <;> exact hi.of_same (evenAddr_bit0 _) rfl rfl rfl rfl
  · cases p <;> cases hn <;>
      exact hi.of_same (evenAddr_bit0 _) (s.pushed_ram _) (s.pushed_prog _) (s.pushed_hold _) (s.pushed_cfg _)

/-- The state in which a turn is made. -/
def Turn.state : Turn → State
  | .reset _ s | .interrupt _ s | .instruction s | .asleep s => s

/-- A boundary moves neither pc nor a memory before its turn. -/
theorem turn_keeps_inv (hi : s.Inv) : (turn s).state.Inv := by
  have ha : s.arrive.Inv := hi.of_same hi.1 rfl rfl rfl rfl
  rcases turn_cases s with ⟨k, -, ht⟩ | ⟨-, -, ht⟩ | ⟨-, -, ht⟩ <;> rw [ht]
  · exact ha
  · rcases sleepingTurn_cases (wdtExpires s) s.arrive with ⟨b, h'⟩ | ⟨-, -, h'⟩ <;> rw [h']
    · exact ha.of_same ha.1 rfl rfl rfl rfl
    · exact ha
  · rcases runningTurn_cases s.arrive with h' | ⟨p, -, -, h'⟩ <;> rw [h'] <;> exact ha.of_same ha.1 rfl rfl rfl rfl

theorem step_keeps_inv (hi : s.Inv) (h : step s = .next t) : t.Inv := by
  have ht := turn_keeps_inv hi
  rcases step_next h with ⟨k, u, hu, rfl⟩ | ⟨p, u, hu, hp⟩ | ⟨u, j, hu, -, hx⟩ | hu <;> rw [hu] at ht
  · exact ht.deviceReset k rfl rfl rfl
  · exact takeInterrupt_keeps_inv ht hp
  · refine exec_keeps_inv (ht.of_same ?_ ?_ ?_ ?_ ?_) hx
    · rw [State.tickWdt_pc]; exact ht.1
    · exact State.tickWdt_ram ..
    · exact State.tickWdt_prog ..
    · exact State.tickWdt_hold ..
    · exact State.tickWdt_cfg ..
  · exact ht

/-- Settles O3: a turn starts from a state with the invariant, and a reset, an interrupt entry and every instruction's
effect keep it. -/
theorem stepKeepsInvariant : Obligations.StepKeepsInvariant :=
  fun _ _ hi h => step_keeps_inv hi h

end Sys2Proof.Machine
end

section
/-! PROOFS. The frames: what an instruction leaves unchanged. -/

namespace Sys2Proof.Machine

variable {i : Instr} {s : State} {l : Loc}

/-! ### The frames -/

/-- The store of an instruction that names another location leaves register `r`. -/
theorem ne_reg_of_storeLoc {r : Sfr} (hl : storeLoc i s = some l ∨ l = .null) (h : storeLoc i s ≠ some (.reg r)) :
    l ≠ .reg r := by
  rintro rfl
  rcases hl with hl | hl
  · exact h hl
  · cases hl

/-- Settles O51: by the effect of the instruction and the frame of its store. -/
theorem frameOfWregAndFlags : Obligations.FrameOfWregAndFlags := by
  intro i s t h hr hsh
  obtain ⟨l, u, hl, ho, hs⟩ := (exec_effect h).without_reset hr
  refine ⟨fun hw hn => ?_, fun hn => ?_⟩
  · exact (hs.wreg (ne_reg_of_storeLoc hl hn)).trans (ho.wreg hw hsh)
  · rw [hs.flags (ne_reg_of_storeLoc hl hn)]
    obtain ⟨kn, kov, kz, kdc, kc⟩ := ho.flags hsh
    exact ⟨kn, kov, kz, kdc, kc⟩

/-- Settles O52: like O51. -/
theorem frameOfPointersAndDataRegisters : Obligations.FrameOfPointersAndDataRegisters := by
  intro i s t h hr
  obtain ⟨l, u, hl, ho, hs⟩ := (exec_effect h).without_reset hr
  have ne {r : Sfr} (hn : storeLoc i s ≠ some (.reg r)) : l ≠ .reg r := ne_reg_of_storeLoc hl hn
  refine ⟨fun hb hsh hn => ?_, fun m n hm hw ha hh hlo => ?_, fun hf hk => ⟨fun hn => ?_, fun hn => ?_⟩,
    fun hi h1 h2 h3 => ?_, fun h1 h2 h3 h4 hn => ?_, fun hp => ⟨fun hn => ?_, fun hn => ?_⟩⟩
  · exact (hs.bsr (ne hn)).trans (ho.bsr hb hsh)
  · exact (hs.fsr n (ne hh) (ne hlo)).trans (ho.fsr m n hm hw ha)
  · exact (hs.prodh (ne hn)).trans (ho.prod hf hk).1
  · exact (hs.prodl (ne hn)).trans (ho.prod hf hk).2
  · exact (hs.tblptr (ne h1) (ne h2) (ne h3)).trans (ho.tblptr hi)
  · exact (hs.tablat (ne hn)).trans (ho.tablat h1 h2 h3 h4)
  · exact (hs.pclath (ne hn)).trans (ho.latches hp).1
  · exact (hs.pclatu (ne hn)).trans (ho.latches hp).2

theorem storeLoc_of_pushes (h : i.pushes = true) (s : State) : storeLoc i s = none := by
  rcases Instr.pushes_cases h with ⟨k, b, rfl⟩ | ⟨n, rfl⟩ | rfl | rfl <;> rfl

/-- Settles O53: like O51; a pushing instruction stores to no location. -/
theorem frameOfStackAndShadows : Obligations.FrameOfStackAndShadows := by
  intro i s t h hr
  obtain ⟨l, u, hl, ho, hs⟩ := (exec_effect h).without_reset hr
  have ne {r : Sfr} (hn : storeLoc i s ≠ some (.reg r)) : l ≠ .reg r := ne_reg_of_storeLoc hl hn
  refine ⟨fun hp h1 h2 h3 => ?_, fun hp k hk => ?_, fun hn => ⟨fun hp hq => ?_, fun hp => ?_, fun hq => ?_⟩,
    fun hi => hs.shadow.trans (ho.shadow hi)⟩
  · exact (hs.stack (ne h1) (ne h2) (ne h3)).trans (ho.stack hp)
  · have hnone {r : Sfr} : l ≠ .reg r := ne (by rw [storeLoc_of_pushes hp]; exact nofun)
    rw [hs.stack hnone hnone hnone]
    exact ho.entries k hk
  · exact (hs.sp (ne hn)).trans (ho.sp hp hq)
  · exact (hs.stkful (ne hn)).trans (ho.stkful hp)
  · exact (hs.stkunf (ne hn)).trans (ho.stkunf hq)

/-- Settles O54: like O51. -/
theorem frameOfSystemState : Obligations.FrameOfSystemState := by
  intro i s t h hr
  obtain ⟨l, u, hl, ho, hs⟩ := (exec_effect h).without_reset hr
  refine ⟨fun hi hn => ?_, fun hn => ?_, fun h1 h2 => ?_, fun h1 h2 h3 h4 => ?_, fun hi => ?_, fun hi => ?_,
    ?_, ?_, ?_, ?_⟩
  · have hne := ne_reg_of_storeLoc hl hn
    exact ⟨(hs.gieh hne).trans (ho.enables hi).1, (hs.giel hne).trans (ho.enables hi).2⟩
  · rw [hs.rcon (ne_reg_of_storeLoc hl hn), ho.rcon]
    exact ⟨rfl, rfl, rfl, rfl, rfl⟩
  · obtain ⟨hto, hpd, hc, hps⟩ := ho.watchdog h1 h2
    exact ⟨hs.timeOut.trans hto, hs.powerDown.trans hpd, hs.wdtCounter.trans hc, hs.wdtPostscaler.trans hps⟩
  · exact hs.hold.trans (ho.hold h1 h2 h3 h4)
  · exact hs.runState.trans (ho.runState hi)
  · exact hs.skipped.trans (ho.skipped hi)
  · exact hs.requests.trans ho.requests
  · exact hs.prog.trans ho.prog
  · exact hs.cfg.trans ho.cfg
  · exact hs.env.trans ho.env

end Sys2Proof.Machine
end

section
/-! PROOFS. The flags of an addition and a subtraction, in exact numbers. -/

namespace Sys2Proof.Machine

/-! ### Flags in exact numbers -/

/-- R28's condition on the sign bits, for the result `r` of an addition with carry: the signed sum does not fit. -/
theorem signed_add_overflows {a b r : Byte} {c : Nat} (hc : c ≤ 1) (hr : r.toNat = (a.toNat + b.toNat + c) % 256) :
    (a.getLsbD 7 = b.getLsbD 7 ∧ r.getLsbD 7 ≠ a.getLsbD 7) ↔ r.toInt ≠ a.toInt + b.toInt + (c : Int) := by
  have hs : ∀ x : Byte, x.getLsbD 7 = decide (128 ≤ x.toNat) := signBit_eq
  have ha := a.isLt
  have hb := b.isLt
  simp only [hs, toInt_eq, ne_eq, decide_eq_decide]
  by_cases h1 : 128 ≤ a.toNat <;> by_cases h2 : 128 ≤ b.toNat <;> by_cases h3 : 128 ≤ r.toNat <;>
    simp [h1, h2, h3] <;> omega

theorem addFlags_ov (a b : Byte) (cin : Bool) :
    (addFlags a b cin).flags.ov = true ↔
      a.getLsbD 7 = b.getLsbD 7 ∧ (addFlags a b cin).value.getLsbD 7 ≠ a.getLsbD 7 := by
  simp only [addFlags, signBit, Bool.and_eq_true, beq_iff_eq, bne_iff_ne]

theorem addFlags_n (a b : Byte) (cin : Bool) :
    (addFlags a b cin).flags.n = decide (128 ≤ (addFlags a b cin).value.toNat) :=
  signBit_eq _

/-- Settles O13: OV is R28's condition on the sign bits. -/
theorem additionFlagsAreExact : Obligations.AdditionFlagsAreExact := by
  intro a b cin
  refine ⟨addFlags_value a b cin, decide_eq_true_iff, decide_eq_true_iff, decide_eq_true_iff, ?_, ?_,
    addFlags_ov a b cin⟩
  · rw [addFlags_n, decide_eq_true_iff]
  · rw [addFlags_ov]
    exact signed_add_overflows (Bool.toNat_le cin) (addFlags_value a b cin)

/-- A subtraction is the addition of the complement, but for R29's form of OV. -/
theorem subFlags_eq_addFlags (a b : Byte) (cin : Bool) : subFlags a b cin = addFlags a (~~~b) cin := by
  have h : signBit (~~~b) = !signBit b := by simp [signBit]
  simp only [subFlags, addFlags, h]
  cases signBit a <;> cases signBit b <;> rfl

theorem subFlags_value_sub (a b : Byte) (cin : Bool) :
    (subFlags a b cin).value = a - b - (if cin then 0 else 1) := by
  have ha := a.isLt
  have hb := b.isLt
  apply BitVec.eq_of_toNat_eq
  rw [subFlags_value]
  cases cin <;> simp [BitVec.toNat_sub] <;> omega

/-- Settles O14: each clause but R29's two is the one of the addition `a + ~b + cin`. -/
theorem subtractionFlagsAreExact : Obligations.SubtractionFlagsAreExact := by
  intro a b cin
  have hnot : (~~~b).toNat = 255 - b.toNat := by simp [BitVec.toNat_not]
  have hint : (~~~b).toInt = - b.toInt - 1 := by
    have hb := b.isLt
    simp only [toInt_eq, hnot]
    split <;> split <;> omega
  have hb := b.isLt
  obtain ⟨hval, hc, hdc, hz, hn, hov, hsign⟩ := additionFlagsAreExact a (~~~b) cin
  rw [← subFlags_eq_addFlags] at hval hc hdc hz hn hov hsign
  refine ⟨subFlags_value_sub a b cin, hval, hc, hc.trans ?_, hdc, hdc.trans ?_, hz, hn, hov.trans ?_, hsign.trans ?_⟩
  · rw [hnot]
    cases cin <;> simp <;> omega
  · rw [hnot]
    cases cin <;> simp <;> omega
  · rw [hint]
    cases cin <;> simp <;> omega
  · rw [BitVec.getLsbD_not]
    cases a.getLsbD 7 <;> cases b.getLsbD 7 <;> simp

end Sys2Proof.Machine
end

section
/-! PROOFS. Values after reset, the addresses of the core registers, and the return stack at its limits and over a
call. -/

namespace Sys2Proof.Machine

variable {i : Instr} {s : State}

/-! ### Reset values and addresses -/

/-- Settles O1: each value by computation. -/
theorem powerOnResetValues : Obligations.PowerOnResetValues := by
  have hfsr : ∀ n, (State.reset.fsr n).extractLsb' 8 4 = 0#4 := by intro n; cases n <;> rfl
  exact ⟨rfl, rfl, rfl, rfl, rfl, rfl, rfl, rfl, rfl, rfl, hfsr, rfl, rfl, rfl, rfl, rfl, rfl, rfl, rfl, rfl, rfl, rfl,
    rfl, rfl, by decide⟩

/-- Settles O2: the memories are empty. -/
theorem resetStateMeetsInvariant : Obligations.ResetStateMeetsInvariant :=
  ⟨rfl, Memory.wf_nil, Memory.wf_nil, Memory.wf_nil, by decide, nofun, nofun, nofun⟩

/-- No address has two entries in the table of 10_state.md R50. -/
theorem coreEntry_eq_some_iff (a : DataAddr) (e : CoreEntry) : coreEntry a = some e ↔ (a, e) ∈ coreTable := by
  constructor
  · intro h
    obtain ⟨l, m, hl, -⟩ := List.lookup_eq_some_iff.mp h
    rw [hl]
    exact List.mem_append_right l (List.mem_cons_self ..)
  · intro h
    have hall : ∀ p ∈ coreTable, coreEntry p.1 = some p.2 := by decide
    exact hall _ h

/-- Settles O43: an entry is a row of the table. -/
theorem coreRegisterAddresses : Obligations.CoreRegisterAddresses := by
  intro a e
  rw [coreEntry_eq_some_iff]
  simp only [coreTable, stackTableCore, fsr0Core, fsr1Core, fsr2Core, List.mem_append, List.mem_cons, List.not_mem_nil,
    or_false, Prod.mk.injEq, or_assoc]

/-! ### The return stack at its limits -/

/-- A pushing instruction is a push, pc past its words, and then a jump that leaves the stack alone. -/
theorem exec_of_pushes (hi : i.pushes = true) (hx : i.isExtended = true → s.cfg.xinst = true) :
    ∃ n x k, exec i s = pushThen (s.advance n) x k ∧
      ∀ u, ∃ t, k u = .next t ∧ t.sp = u.sp ∧ t.stack = u.stack ∧ t.stkful = u.stkful := by
  rcases Instr.pushes_cases hi with ⟨k, b, rfl⟩ | ⟨n, rfl⟩ | rfl | rfl
  · refine ⟨4, _, fun u => .next ((u.saveShadowIf b).setPc (absTarget k)), rfl, fun u => ⟨_, rfl, ?_⟩⟩
    exact ⟨State.saveShadowIf_sp u b, State.saveShadowIf_stack u b, State.saveShadowIf_stkful u b⟩
  · exact ⟨2, _, fun u => .next (u.setPc (relTarget s.pc n)), rfl, fun u => ⟨_, rfl, rfl, rfl, rfl⟩⟩
  · exact ⟨2, _, .next, rfl, fun u => ⟨_, rfl, rfl, rfl, rfl⟩⟩
  · refine ⟨2, _, _, requireXinst_on (hx rfl) _ _, fun u => ⟨_, rfl, ?_⟩⟩
    exact ⟨rfl, rfl, rfl⟩

/-- A popping instruction is a pop, pc, WREG or FSR2 already changed by its rule, and then a jump to the value popped,
which `POP` leaves out. -/
theorem exec_of_pops (hi : i.pops = true) (hx : i.isExtended = true → s.cfg.xinst = true) :
    ∃ u k, exec i s = popThen u k ∧ u = { s with pc := u.pc, wreg := u.wreg, fsr2 := u.fsr2 } ∧
      ∀ w : State, w.pc = 0 →
        ∃ t, k 0 w = .next t ∧ t.sp = w.sp ∧ t.stack = w.stack ∧ t.stkunf = w.stkunf ∧ t.pc = 0 := by
  rcases Instr.pops_cases hi with rfl | ⟨b, rfl⟩ | ⟨k, rfl⟩ | ⟨b, rfl⟩ | ⟨k, rfl⟩ | ⟨k, rfl⟩
  · exact ⟨s.advance 2, fun _ t => .next t, rfl, rfl, fun w hw => ⟨w, rfl, rfl, rfl, rfl, hw⟩⟩
  · refine ⟨s, fun x u => .next ((u.restoreShadowIf b).setPc x), rfl, rfl, fun w _ => ⟨_, rfl, ?_⟩⟩
    exact ⟨State.restoreShadowIf_sp w b, State.restoreShadowIf_stack w b, State.restoreShadowIf_stkunf w b, rfl⟩
  · refine ⟨{ s with wreg := k }, fun x u => .next (u.setPc x), rfl, rfl, fun w _ => ⟨_, rfl, ?_⟩⟩
    exact ⟨rfl, rfl, rfl, rfl⟩
  · refine ⟨s, fun x u => .next ((u.restoreShadowIf b).reenable.setPc x), rfl, rfl, fun w _ => ⟨_, rfl, ?_⟩⟩
    exact ⟨by simp, by simp, by simp, rfl⟩
  · refine ⟨{ s with fsr2 := s.fsr2 + k.setWidth 12 }, _, requireXinst_on (hx rfl) _ _, rfl, fun w _ => ⟨_, rfl, ?_⟩⟩
    exact ⟨rfl, rfl, rfl, rfl⟩
  · refine ⟨{ s with fsr2 := s.fsr2 - k.setWidth 12 }, _, requireXinst_on (hx rfl) _ _, rfl, fun w _ => ⟨_, rfl, ?_⟩⟩
    exact ⟨rfl, rfl, rfl, rfl⟩

/-- Settles O31: every push and pop is `pushThen` or `popThen`. -/
theorem stackLimitsStopAdmittedModel : Obligations.StackLimitsStopAdmittedModel := by
  intro i s ha hx
  refine ⟨fun hi hfull => ?_, fun hi h0 => ?_⟩
  · obtain ⟨n, x, k, he, -⟩ := exec_of_pushes hi hx
    rw [he]
    exact (if_pos hfull).trans (if_pos ha)
  · obtain ⟨u, k, he, hu, -⟩ := exec_of_pops hi hx
    rw [he, hu]
    exact (if_pos h0).trans (if_pos ha)

/-- A push that fills the stack or finds it full, with `STVREN = 1` outside the admitted model (10_state.md R40). -/
theorem pushThen_resets (h : pushResets s = true) (x : ProgAddr) (k : State → Result) :
    ∃ u, pushThen s x k = .next (deviceReset .stack u) ∧ u.stkful = true ∧ u.stkunf = s.stkunf ∧ u.wreg = s.wreg ∧
      u.flags = s.flags ∧ u.ram = s.ram ∧ u.rcon = s.rcon := by
  simp only [pushResets, Bool.and_eq_true, Bool.not_eq_true', decide_eq_true_eq] at h
  obtain ⟨⟨ha, hv⟩, hd⟩ := h
  by_cases hfull : s.cfg.stackDepth ≤ s.sp
  · refine ⟨{ s with stkful := true }, ?_, rfl, rfl, rfl, rfl, rfl, rfl⟩
    simp only [pushThen, if_pos hfull, ha, hv, Bool.false_eq_true, if_false, if_true]
  · have hlt : s.sp < s.cfg.stackDepth := BitVec.not_le.mp hfull
    have hfills : s.sp + 1 = s.cfg.stackDepth := by
      have hs := sp_succ hlt
      rw [BitVec.lt_def] at hlt
      exact BitVec.eq_of_toNat_eq (by omega)
    refine ⟨s.pushed x, ?_, ?_, ?_, ?_, ?_, ?_, ?_⟩
    · simp only [pushThen, if_neg hfull, ha, hv, State.pushed_sp, hfills, Bool.not_false, Bool.and_self, decide_true,
        if_true]
    · rw [State.pushed_stkful, decide_eq_true hfills, Bool.or_true]
    · exact State.pushed_stkunf ..
    · exact State.pushed_wreg ..
    · exact State.pushed_flags ..
    · exact State.pushed_ram ..
    · exact State.pushed_rcon ..

/-- Settles O32: by the same shapes, the reset taken or what follows the push or pop run. -/
theorem stackLimitsOfTheHardware : Obligations.StackLimitsOfTheHardware := by
  intro i s ha hx
  refine ⟨fun hi hv hd => ?_, fun hi hv hfull => ?_, fun hi hv h0 => ?_, fun hi hv h0 => ?_⟩
  · obtain ⟨n, x, k, he, -⟩ := exec_of_pushes hi hx
    have hr : pushResets (s.advance n) = true := by
      simp only [pushResets, State.advance_eq, State.setPc_cfg, State.setPc_sp, ha, hv, hd, Bool.not_false, decide_true,
        Bool.and_self]
    obtain ⟨u, hu, hful, hunf, hw, hfl, hram, hrcon⟩ := pushThen_resets hr x k
    exact ⟨_, he.trans hu, rfl, rfl, hful, hunf, rfl, hw, hfl, hram, (congrArg Rcon.ri hrcon :)⟩
  · obtain ⟨n, x, k, he, hk⟩ := exec_of_pushes hi hx
    obtain ⟨t, ht, hsp, hstack, hful⟩ := hk { s.advance n with stkful := true }
    have hp : pushThen (s.advance n) x k = k { s.advance n with stkful := true } := by
      simp only [pushThen, State.advance_eq, State.setPc_cfg, State.setPc_sp, if_pos hfull, ha, hv, Bool.false_eq_true,
        if_false]
    exact ⟨t, he.trans (hp.trans ht), hsp, hstack, hful⟩
  · obtain ⟨u, k, he, hu, -⟩ := exec_of_pops hi hx
    have hp : popThen u k = .next (deviceReset .stack { u with stkunf := true }) := by
      rw [hu]
      simp only [popThen, h0, ha, hv, Bool.false_eq_true, if_false, if_true]
    refine ⟨_, he.trans hp, rfl, rfl, rfl, ?_, rfl, ?_, ?_, ?_⟩ <;> rw [hu] <;> rfl
  · obtain ⟨u, k, he, hu, hk⟩ := exec_of_pops hi hx
    obtain ⟨t, ht, hsp, hstack, hunf, hpc⟩ := hk ({ u with stkunf := true }.setPc 0) rfl
    have hp : popThen u k = k 0 ({ u with stkunf := true }.setPc 0) := by
      rw [hu]
      simp only [popThen, h0, ha, hv, Bool.false_eq_true, if_false, if_true]
    refine ⟨t, he.trans (hp.trans ht), hsp.trans ?_, hstack.trans ?_, hunf, hpc⟩ <;> rw [hu]
    · exact h0
    · rfl

/-- A `RETURN` on a stack whose top entry, at SP, is `x`: pc takes `x`, SP goes back, the entries stay. -/
theorem ret_of_pushed {r : State} {n : BitVec 5} {m : Vector ProgAddr 31} {x : ProgAddr} (hn : n.toNat < 31)
    (hsp : r.sp = n + 1) (hstack : r.stack = m.setIfInBounds n.toNat x) (fast : Bool) :
    ∃ u, exec (.ret fast) r = .next u ∧ u.pc = evenAddr x ∧ u.sp = n ∧
      (∀ j, j < n.toNat → u.stack[j]? = m[j]?) ∧ u.wreg = (if fast then r.shadow.ws else r.wreg) ∧
      u.flags = (if fast then r.shadow.statuss else r.flags) ∧ u.bsr = (if fast then r.shadow.bsrs else r.bsr) := by
  have hnat : (n + 1).toNat = n.toNat + 1 := by
    rw [BitVec.toNat_add]
    exact Nat.mod_eq_of_lt (by omega : n.toNat + 1 < 32)
  have hne : r.sp ≠ 0 := by
    intro h0
    have h1 := congrArg BitVec.toNat (hsp.symm.trans h0)
    rw [hnat] at h1
    exact Nat.succ_ne_zero _ h1
  have htos : r.tos = x := by
    rw [State.tos, if_neg hne, hsp, hstack, hnat, Vector.getElem?_setIfInBounds]
    simp [hn]
  refine ⟨(({ r with sp := r.sp - 1 } : State).restoreShadowIf fast).setPc r.tos,
    popThen_held hne fun y u => .next ((u.restoreShadowIf fast).setPc y), ?_, ?_, ?_, ?_⟩
  · rw [htos]; rfl
  · rw [State.setPc_sp, State.restoreShadowIf_sp, hsp, BitVec.add_sub_cancel]
  · intro j hj
    rw [State.setPc_stack, State.restoreShadowIf_stack, hstack, Vector.getElem?_setIfInBounds, if_neg (by omega)]
  · rw [State.setPc_wreg, State.setPc_flags, State.setPc_bsr, State.restoreShadowIf_wreg, State.restoreShadowIf_flags,
      State.restoreShadowIf_bsr]
    exact ⟨rfl, rfl, rfl⟩

/-- Settles O33: the pop takes back the entry and the SP of the push. -/
theorem callThenReturnComesBack : Obligations.CallThenReturnComesBack := by
  intro s t k fast w fl b hpc hroom h
  have ht : t = (((s.advance 4).pushed (s.pc + 4)).saveShadowIf fast).setPc (absTarget k) := by
    rw [exec, execCall, pushThen_room (s := s.advance 4) hroom] at h
    exact (Host.Outcome.next.inj h).symm
  have hsp : t.sp = s.sp + 1 := by rw [ht]; simp
  have hstack : t.stack = s.stack.setIfInBounds s.sp.toNat (s.pc + 4) := by rw [ht]; simp
  have hshadow : t.shadow = if fast then ⟨s.wreg, s.flags, s.bsr⟩ else s.shadow := by rw [ht]; simp
  obtain ⟨u, hu, hpc', hsp', hbelow, hw, hfl, hb⟩ :=
    ret_of_pushed (r := { t with wreg := w, flags := fl, bsr := b }) (sp_lt_of_room hroom) hsp hstack fast
  have heven : evenAddr (s.pc + 4) = s.pc + 4 := evenAddr_of_even (even_add hpc even_four)
  refine ⟨u, hu, hpc'.trans heven, hsp', hbelow, hw.trans ?_, hfl.trans ?_, hb.trans ?_⟩ <;>
    cases fast <;> simp [hshadow]

end Sys2Proof.Machine
end

section
/-! PROOFS. STATUS as a destination, the registers of the stack and PCL, sleep and wake-up. -/

namespace Sys2Proof.Machine

variable {i : Instr} {s t u : State} {l : Loc} {f : Byte} {a : Access} {v : Byte}

/-! ### Bytes as numbers -/

theorem toNat_append_eq {n m : Nat} (x : BitVec n) (y : BitVec m) : (x ++ y).toNat = x.toNat * 2 ^ m + y.toNat := by
  rw [BitVec.toNat_append, ← Nat.shiftLeft_add_eq_or_of_lt y.isLt, Nat.shiftLeft_eq]

theorem toNat_extract {n : Nat} (x : BitVec n) (k m : Nat) : (x.extractLsb' k m).toNat = x.toNat / 2 ^ k % 2 ^ m := by
  rw [BitVec.extractLsb'_toNat, Nat.shiftRight_eq_div_pow]

theorem getLsbD_eq_div {n : Nat} (x : BitVec n) (k : Nat) : x.getLsbD k = decide (x.toNat / 2 ^ k % 2 = 1) := by
  rw [← BitVec.testBit_toNat, Nat.testBit_eq_decide_div_mod_eq]

/-- A rotation to the left with `c` shifted in (R162, R163). -/
theorem rotateLeft_eq (v : Byte) (c : BitVec 1) :
    (v.extractLsb' 0 7 ++ c : Byte) = BitVec.ofNat 8 (v.toNat * 2 + c.toNat) := by
  apply BitVec.eq_of_toNat_eq
  have hc := c.isLt
  rw [toNat_append_eq, toNat_extract, BitVec.toNat_ofNat]
  omega

/-- A rotation to the right with `c` shifted in (R164, R165). -/
theorem rotateRight_eq (v : Byte) (c : BitVec 1) :
    (c ++ v.extractLsb' 1 7 : Byte) = BitVec.ofNat 8 (v.toNat / 2 + 128 * c.toNat) := by
  apply BitVec.eq_of_toNat_eq
  have hc := c.isLt
  have hv := v.isLt
  rw [toNat_append_eq, toNat_extract, BitVec.toNat_ofNat]
  omega

/-! ### STATUS as the destination of a flag-writing instruction -/

theorem storeWithFlags_status (s : State) (r : AluResult) :
    storeWithFlags s (.reg .status) r =
      if s.cfg.admitted then .error .statusDestination else .ok { s with flags := r.flags } :=
  if_pos rfl

/-- An instruction of the shape `flagOp` on STATUS (R51): a fault in the admitted model, else its computed flags
stand. -/
theorem flagOp_status (h : readOperand (s.advance 2) f a = .ok ⟨.reg .status, v, u⟩)
    (op : Byte → Byte → Flags → AluResult) :
    flagOp s f .f a op =
      if s.cfg.admitted then .fault .statusDestination else .next { u with flags := (op v s.wreg s.flags).flags } := by
  have hm := readOperand_moves h
  have hcfg : u.cfg = s.cfg := hm.cfg
  have hw : u.wreg = s.wreg := hm.wreg
  have hfl : u.flags = s.flags := hm.flags
  rw [flagOp_of_read h, destWithFlags, storeWithFlags_status, hcfg, hw, hfl]
  split <;> rfl

/-- `CLRF STATUS` (R51): the operand is resolved as for a read, and Z is the flag that stands. -/
theorem clrf_status (h : readOperand (s.advance 2) f a = .ok ⟨.reg .status, v, u⟩) :
    execClrf f a s =
      if s.cfg.admitted then .fault .statusDestination else .next { u with flags := { s.flags with z := true } } := by
  obtain ⟨st, hr, hl⟩ := readOperand_ok h
  rcases locRead_ok hl with ⟨-, rfl⟩ | ⟨hn, -⟩
  · have hm := resolve_moves (resolveOperand_ok hr).1
    have hcfg : u.cfg = s.cfg := hm.cfg
    have hfl : u.flags = s.flags := hm.flags
    rw [execClrf, writeOnly_of_resolve hr, storeWithFlags_status, hcfg, hfl]
    split <;> rfl
  · cases hn

/-- The instructions that store a result and flags to their operand: `CLRF`, and those of the shape `flagOp`. -/
theorem exec_of_flagsWritten (hf : i.fileOperand = some (f, a)) (hs : i.storesToFile = true) (hw : i.flagsWritten ≠ {})
    (s : State) : exec i s = execClrf f a s ∨ ∃ op, exec i s = flagOp s f .f a op := by
  cases i <;> cases hf
  case clrf => exact .inl rfl
  case negf => simp only [exec]; exact .inr ⟨_, rfl⟩
  case cpfseq | cpfsgt | cpfslt | tstfsz | btfsc | btfss | mulwf => cases hs
  case decfsz | dcfsnz | incfsz | infsnz | swapf | movwf | setf | bcf | bsf | btg => exact absurd rfl hw
  all_goals
    cases of_decide_eq_true hs
    simp only [exec]
    exact .inr ⟨_, rfl⟩

theorem znFlags_flags (r : Byte) (fl : Flags) :
    (znFlags r fl).flags =
      { n := decide (128 ≤ r.toNat), ov := fl.ov, z := decide (r = 0), dc := fl.dc, c := fl.c } := by
  rw [← signBit_eq]
  rfl

theorem rotateFlags_flags (r : Byte) (out : Bool) (fl : Flags) :
    (rotateFlags r out fl).flags =
      { n := decide (128 ≤ r.toNat), ov := fl.ov, z := decide (r = 0), dc := fl.dc, c := out } := by
  rw [← signBit_eq]
  rfl

/-- Settles O27: seventeen instructions have the shape `flagOp`, the other is `CLRF`. -/
theorem statusAsFlagDestination : Obligations.StatusAsFlagDestination := by
  intro s f a v u h
  refine ⟨fun ha i hf hs hw => ?_, fun ha => ?_⟩
  · rcases exec_of_flagsWritten hf hs hw s with he | ⟨op, he⟩
    · rw [he, clrf_status h, if_pos ha]
    · rw [he, flagOp_status h, if_pos ha]
  · intro stands zn
    have hop (op : Byte → Byte → Flags → AluResult) :
        flagOp s f .f a op = .next { u with flags := (op v s.wreg s.flags).flags } := by
      rw [flagOp_status h, ha]
      rfl
    have hzn {op : Byte → Byte → Flags → AluResult} {r : Byte} {c : Bool}
        (hr : (op v s.wreg s.flags).flags = zn r c) :
        flagOp s f .f a op = .next { u with flags := zn r c } := by
      rw [hop, hr]
    have h7 : v.getLsbD 7 = decide (128 ≤ v.toNat) := signBit_eq v
    refine ⟨⟨?_, ?_, ?_, ?_, ?_, ?_, ?_, ?_⟩, ⟨?_, ?_, ?_, ?_, ?_⟩, ⟨?_, ?_, ?_, ?_⟩, ?_⟩
    · exact hop fun v w _ => addFlags v w false
    · exact hop fun v w fl => addFlags v w fl.c
    · exact hop fun v w _ => subFlags v w true
    · exact hop fun v w fl => subFlags v w fl.c
    · exact hop fun v w fl => subFlags w v fl.c
    · exact hop fun v _ _ => addFlags v 0x01 false
    · exact hop fun v _ _ => subFlags v 0x01 true
    · exact hop fun v _ _ => subFlags 0x00 v true
    · exact hzn (op := fun v w fl => znFlags (v &&& w) fl) (znFlags_flags ..)
    · exact hzn (op := fun v _ fl => znFlags (~~~v) fl) (znFlags_flags ..)
    · exact hzn (op := fun v w fl => znFlags (v ||| w) fl) (znFlags_flags ..)
    · exact hzn (op := fun v _ fl => znFlags v fl) (znFlags_flags ..)
    · exact hzn (op := fun v w fl => znFlags (v ^^^ w) fl) (znFlags_flags ..)
    · refine hzn (op := fun v _ fl => rotateFlags (v.extractLsb' 0 7 ++ BitVec.ofBool fl.c) (v.getLsbD 7) fl) ?_
      rw [rotateFlags_flags, rotateLeft_eq, BitVec.toNat_ofBool, h7]
    · refine hzn (op := fun v _ fl => znFlags (v.extractLsb' 0 7 ++ v.extractLsb' 7 1) fl) ?_
      have hc : (v.extractLsb' 7 1).toNat = v.toNat / 128 := by
        rw [toNat_extract]
        have hv := v.isLt
        omega
      rw [znFlags_flags, rotateLeft_eq, hc]
    · refine hzn (op := fun v _ fl => rotateFlags (BitVec.ofBool fl.c ++ v.extractLsb' 1 7) (v.getLsbD 0) fl) ?_
      rw [rotateFlags_flags, rotateRight_eq, BitVec.toNat_ofBool, getLsbD_eq_div, pow_zero, Nat.div_one]
    · refine hzn (op := fun v _ fl => znFlags (v.extractLsb' 0 1 ++ v.extractLsb' 1 7) fl) ?_
      have hc : (v.extractLsb' 0 1).toNat = v.toNat % 2 := by rw [toNat_extract, pow_zero, Nat.div_one, pow_one]
      rw [znFlags_flags, rotateRight_eq, hc]
    · have hclr := clrf_status h
      rw [ha] at hclr
      exact hclr

/-! ### The stack's registers -/

/-- The three bytes of the top of the stack put together. -/
theorem tosBytes_eq (s : State) :
    (sfrByte s .tosu).toNat * 65536 + (sfrByte s .tosh).toNat * 256 + (sfrByte s .tosl).toNat = s.tos.toNat := by
  have ht := s.tos.isLt
  simp only [sfrByte, toNat_append_eq, toNat_extract, BitVec.toNat_ofNat]
  omega

theorem stkptrByte_eq (s : State) :
    (sfrByte s .stkptr).toNat = s.stkful.toNat * 128 + s.stkunf.toNat * 64 + s.sp.toNat := by
  simp only [sfrByte, toNat_append_eq, BitVec.toNat_ofBool, BitVec.toNat_ofNat]
  omega

/-- Settles O49: the bytes put together as numbers. -/
theorem stackRegisters : Obligations.StackRegisters := by
  intro s v
  refine ⟨stkptrByte_eq s, ?_, fun ha => ⟨if_pos ha, fun h0 => ?_⟩, fun ha => ⟨?_, fun h0 => ?_⟩⟩
  · rw [tosBytes_eq, State.tos]
    split <;> rfl
  · have hw (k : Nat) : tosWrite s k v = .error .stackRegisterWrite := (if_pos h0).trans (if_pos ha)
    exact ⟨hw 2, hw 1, hw 0⟩
  · have hv := v.isLt
    have hsp : v.extractLsb' 0 5 = BitVec.ofNat 5 (v.toNat % 32) := by
      apply BitVec.eq_of_toNat_eq
      rw [toNat_extract, BitVec.toNat_ofNat]
      omega
    have h7 : v.getLsbD 7 = decide (128 ≤ v.toNat) := signBit_eq v
    have h6 : v.getLsbD 6 = decide (64 ≤ v.toNat % 128) := by
      rw [getLsbD_eq_div, decide_eq_decide]
      omega
    rw [sfrWrite, ha, hsp, h7, h6]
    rfl
  · have hw (k : Nat) : tosWrite s k v = .ok s := by
      rw [tosWrite, if_pos h0, ha]
      rfl
    exact ⟨hw 2, hw 1, hw 0⟩

/-! ### PCL as a file register -/

/-- A core register's own address resolves to it and moves no pointer. -/
theorem resolve_core {x : DataAddr} {r : Sfr} (h : coreEntry x = some (.core r)) (s : State) :
    resolve s x = .ok ⟨.reg r, s⟩ := by
  simp only [resolve, resolveDirect, h]

theorem coreEntry_pcl : coreEntry 0xFF9 = some (.core .pcl) := by decide

/-- With BSR = 15 the banked operand 0xF9 is PCL. -/
theorem resolveOperand_pcl (h : s.bsr = 15) : resolveOperand s 0xF9 .banked = .ok ⟨.reg .pcl, s⟩ := by
  have ha : dataAddr s 0xF9 .banked = 0xFF9 := by
    rw [dataAddr, h]
    rfl
  have hm : indexedMode s 0xF9 .banked = false := by simp [indexedMode]
  rw [resolveOperand, hm, ha]
  exact resolve_core coreEntry_pcl s

theorem readOperand_pcl (h : s.bsr = 15) :
    readOperand s 0xF9 .banked = .ok ⟨.reg .pcl, s.pc.extractLsb' 0 8,
      { s with pclath := s.pc.extractLsb' 8 8, pclatu := s.pc.extractLsb' 16 5 }⟩ := by
  rw [readOperand, resolveOperand_pcl h]
  rfl

/-- Settles O50: the operand resolves to PCL. -/
theorem programCounterAsRegister : Obligations.ProgramCounterAsRegister := by
  intro s hpc hb
  have h2 : s.advance 2 = { s with pc := s.pc + 2 } := by
    rw [State.advance_eq, State.setPc, evenAddr_of_even (even_add hpc even_two)]
  have h4 : (s.advance 4).pc = s.pc + 4 := evenAddr_of_even (even_add hpc even_four)
  refine ⟨?_, ?_, fun ha fd => ?_, fun ha => ?_⟩
  · exact writeOnly_of_resolve (resolveOperand_pcl hb) fun t l => locWrite t l t.wreg
  · intro v
    have hread := readOperand_pcl (s := s.advance 2) hb
    have hn : signBit v = decide (128 ≤ v.toNat) := signBit_eq v
    rw [exec, execMovf, flagOp_of_read hread, ← hn, h2]
    rfl
  · have hread : locRead .two (s.advance 4) (.reg .pcl) = .error .pclInTwoWord := if_pos ha
    rw [exec, execMovff, resolve_core coreEntry_pcl, andThen_ok, hread, andThen_error]
  · refine ⟨_, _, if_neg (by rw [State.advance_eq, State.setPc_cfg, ha]; exact Bool.false_ne_true), ?_⟩
    have hsub : s.pc + 4 - 2 = s.pc + 2 := by bv_omega
    rw [h4, hsub]
    cases Config.pclReadsFourAhead (s.pc + 4).toNat
    · exact .inl rfl
    · exact .inr rfl

/-! ### Sleep and wake-up -/

theorem arrive_of_no_moves (h : s.env = []) : s.arrive = s := by
  simp only [State.arrive, State.movesNow, h, List.headD_nil, Requests.after, List.tail_nil]
  rw [← h]

/-- Without a power-on or a master clear a sleeping core has no reset (R297). -/
theorem turn_of_sleeping (hs : s.runState = .sleeping) (hp : .powerOn ∉ s.movesNow) (hm : .masterClear ∉ s.movesNow) :
    turn s = sleepingTurn (wdtExpires s) s.arrive := by
  have hd : resetDue s = none := by simp [resetDue, hp, hm, hs]
  rw [turn, hd, hs]

/-- A sleeping core that neither the watchdog nor a request wakes steps to the state after the boundary's moves. -/
theorem step_of_asleep (ht : turn s = sleepingTurn (wdtExpires s) s.arrive) (hw : wdtExpires s = false)
    (hr : s.arrive.requests = {}) : step s = .next s.arrive := by
  rw [step, ht, sleepingTurn, hw, hr]
  rfl

/-- Settles O58: by the turn of a sleeping core. -/
theorem sleepAndWake : Obligations.SleepAndWake := by
  intro s hs hp hm
  have ht := turn_of_sleeping hs hp hm
  refine ⟨fun hwdt hto => ?_, fun hw hr => ?_, fun hw hr => step_of_asleep ht hw hr, fun henv hr => ?_⟩
  · have hw : wdtExpires s = true := by rw [wdtExpires, hwdt, decide_eq_true hto]; rfl
    rw [ht, hw]
    rfl
  · rw [ht, sleepingTurn, hw, if_neg Bool.false_ne_true, if_neg hr]
  · have ha := arrive_of_no_moves henv
    have hw : wdtExpires s = false := by simp [wdtExpires, State.movesNow, henv]
    exact (step_of_asleep ht hw (by rw [ha]; exact hr)).trans (by rw [ha])

end Sys2Proof.Machine
end

section
/-! PROOFS. Program memory and the configuration stay, and the frame of data memory. -/

namespace Sys2Proof.Machine

variable {i : Instr} {s t : State}

/-! ### Program memory and the configuration -/

/-- The moves of a boundary change neither program memory nor the configuration. -/
theorem turn_prog_cfg (s : State) : (turn s).state.prog = s.prog ∧ (turn s).state.cfg = s.cfg := by
  rcases turn_cases s with ⟨k, -, ht⟩ | ⟨-, -, ht⟩ | ⟨-, -, ht⟩ <;> rw [ht]
  · exact ⟨rfl, rfl⟩
  · rcases sleepingTurn_cases (wdtExpires s) s.arrive with ⟨b, h'⟩ | ⟨-, -, h'⟩ <;> rw [h'] <;> exact ⟨rfl, rfl⟩
  · rcases runningTurn_cases s.arrive with h' | ⟨p, -, -, h'⟩ <;> rw [h'] <;> exact ⟨rfl, rfl⟩

theorem exec_prog_cfg (h : exec i s = .next t) : t.prog = s.prog ∧ t.cfg = s.cfg := by
  cases exec_effect h with
  | own ho => exact ⟨ho.prog, ho.cfg⟩
  | store l u _ ho hs => exact ⟨hs.prog.trans ho.prog, hs.cfg.trans ho.cfg⟩
  | reset k u _ _ ho ht =>
    obtain ⟨hp, hc, -⟩ := deviceReset_kept k u
    rw [ht]
    exact ⟨hp.trans ho.prog, hc.trans ho.cfg⟩

theorem takeInterrupt_prog_cfg {p : Priority} (h : takeInterrupt p s = .next t) : t.prog = s.prog ∧ t.cfg = s.cfg := by
  rcases pushThen_next h with ⟨-, rfl | rfl⟩ | ⟨-, -, -, hn⟩ | ⟨-, hn⟩
  · exact ⟨rfl, rfl⟩
  · exact ⟨State.pushed_prog .., State.pushed_cfg ..⟩
  · cases p <;> cases hn <;> exact ⟨rfl, rfl⟩
  · cases p <;> cases hn <;> exact ⟨State.pushed_prog .., State.pushed_cfg ..⟩

/-- Settles O4: the turn, and whatever is done in it, leaves both. -/
theorem stepKeepsProgramAndConfiguration : Obligations.StepKeepsProgramAndConfiguration := by
  intro s t h
  obtain ⟨hprog, hcfg⟩ := turn_prog_cfg s
  have hend : t.prog = (turn s).state.prog ∧ t.cfg = (turn s).state.cfg := by
    rcases step_next h with ⟨k, u, hu, rfl⟩ | ⟨p, u, hu, hp⟩ | ⟨u, j, hu, -, hx⟩ | hu <;> rw [hu]
    · exact (deviceReset_kept k u).imp_right And.left
    · exact takeInterrupt_prog_cfg hp
    · obtain ⟨hp, hc⟩ := exec_prog_cfg hx
      exact ⟨hp.trans (State.tickWdt_prog u), hc.trans (State.tickWdt_cfg u)⟩
    · exact ⟨rfl, rfl⟩
  exact ⟨hend.1.trans hprog, hend.2.trans hcfg⟩

/-! ### The frame of data memory -/

/-- Only a power-on empties the RAM (10_state.md R53). -/
theorem deviceReset_ram {k : ResetKind} (hk : k ≠ .powerOn) (s : State) : (deviceReset k s).ram = s.ram := by
  cases k
  case powerOn => exact absurd rfl hk
  all_goals rfl

/-- Settles O55: by the effect of the instruction; no instruction makes a power-on reset. -/
theorem frameOfDataMemory : Obligations.FrameOfDataMemory := by
  intro i s t h a hne
  cases exec_effect h with
  | own ho => rw [ho.ram]
  | store l u hl ho hs =>
    rw [hs.ram a fun b hb => hne b (hl.trans (congrArg some hb)), ho.ram]
  | reset k u _ hk ho ht => rw [ht, deviceReset_ram hk, ho.ram]

end Sys2Proof.Machine
end

section
/-! PROOFS. The step that executes an instruction, and the bytes of program memory. -/

namespace Sys2Proof.Machine

variable {s t : State} {i : Instr} {xinst : Bool} {b0 b1 b2 b3 : Byte}

/-! ### The instruction at pc -/

/-- With no reset and no interrupt due a running core executes an instruction (R285). -/
theorem turn_of_running (hr : s.runState = .running) (hd : resetDue s = none) (hi : interruptDue s.arrive = none) :
    turn s = .instruction { s.arrive with skipped := false } := by
  rw [turn, hd, hr]
  simp only [runningTurn, hi]

/-- Two bytes with nothing left over are a one-word instruction. -/
theorem decodeBytes_two (h : decodeBytes xinst [b0, b1] = .ok (i, [])) :
    ∃ r, decodeFirst xinst (wordOfBytes b0 b1) = .ok r ∧ r.two = false ∧ i = r.build (wordOfBytes b0 b1) 0 := by
  cases hr : decodeFirst xinst (wordOfBytes b0 b1) with
  | error e => simp [decodeBytes, hr] at h
  | ok r =>
    cases h2 : r.two with
    | true => simp [decodeBytes, hr, h2] at h
    | false =>
      simp only [decodeBytes, hr, h2, Bool.false_eq_true, if_false, decodeSecond_one h2] at h
      cases h
      exact ⟨r, rfl, h2, rfl⟩

/-- Four bytes with nothing left over are a two-word instruction. -/
theorem decodeBytes_four (h : decodeBytes xinst [b0, b1, b2, b3] = .ok (i, [])) :
    ∃ r, decodeFirst xinst (wordOfBytes b0 b1) = .ok r ∧ r.two = true ∧
      decodeSecond r (wordOfBytes b0 b1) (wordOfBytes b2 b3) = .ok i := by
  cases hr : decodeFirst xinst (wordOfBytes b0 b1) with
  | error e => simp [decodeBytes, hr] at h
  | ok r =>
    cases h2 : r.two with
    | true =>
      cases hj : decodeSecond r (wordOfBytes b0 b1) (wordOfBytes b2 b3) with
      | error e => simp [decodeBytes, hr, h2, hj] at h
      | ok j =>
        simp only [decodeBytes, hr, h2, if_true, hj] at h
        cases h
        exact ⟨r, rfl, h2, hj⟩
    | false => simp [decodeBytes, hr, h2, decodeSecond_one h2] at h

theorem fetch_of_two_bytes (h0 : progByte s s.pc = .ok b0) (h1 : progByte s (s.pc + 1) = .ok b1)
    (h : decodeBytes s.cfg.xinst [b0, b1] = .ok (i, [])) : fetch s = .ok i := by
  obtain ⟨r, hr, h2, rfl⟩ := decodeBytes_two h
  exact fetch_one (progWord_of_bytes h0 h1) hr h2

theorem fetch_of_four_bytes (h0 : progByte s s.pc = .ok b0) (h1 : progByte s (s.pc + 1) = .ok b1)
    (h2 : progByte s (s.pc + 2) = .ok b2) (h3 : progByte s (s.pc + 2 + 1) = .ok b3)
    (h : decodeBytes s.cfg.xinst [b0, b1, b2, b3] = .ok (i, [])) : fetch s = .ok i := by
  obtain ⟨r, hr, htwo, hj⟩ := decodeBytes_four h
  simp only [fetch, progWord_of_bytes h0 h1, hr, htwo, if_true, progWord_of_bytes h2 h3, hj]

/-- A turn of the core is the instruction fetched, the watchdog's count advanced. -/
theorem step_of_fetch (ht : turn s = .instruction t) (hf : fetch t = .ok i) : step s = exec i t.tickWdt := by
  rw [step, ht]
  simp only [runInstruction, hf, andThen_ok]

/-- Settles O11: the fetch finds the instruction that the bytes decode to. -/
theorem stepRunsDecodedInstruction : Obligations.StepRunsDecodedInstruction := by
  refine ⟨fun s hr hp hm hw hi => ?_, fun s hr henv hi => ?_, fun s t b0 b1 i ht h0 h1 => ⟨fun h => ?_, ?_⟩⟩
  · exact turn_of_running hr (resetDue_none ⟨hp, hm, hw⟩) hi
  · have harr := arrive_of_no_moves henv
    have hd : resetDue s = none := by simp [resetDue, wdtExpires, State.movesNow, henv]
    rw [turn_of_running hr hd (by rw [harr]; exact hi), harr]
  · exact step_of_fetch ht (fetch_of_two_bytes h0 h1 h)
  · intro b2 b3 h2 h3 h
    exact step_of_fetch ht (fetch_of_four_bytes h0 h1 h2 h3 h)

/-! ### Program memory -/

/-- A program byte outside the image (R74, log entry 9). -/
theorem progByte_unlisted {a : ProgAddr} (h : s.prog.read a.toNat = none) :
    progByte s a =
      if s.cfg.admitted then .error (.outsideProgramImage a)
      else .ok (if a.toNat < s.cfg.progBytes then 0xFF else 0x00) := by
  simp only [progByte, h]

/-- Settles O41: a byte of the image, or one outside it. -/
theorem programBytes : Obligations.ProgramBytes := by
  intro s a
  refine ⟨fun v hv => ?_, fun hn ha => ?_, fun hn ha hlt => ?_, fun hn ha hle => ?_⟩
  · simp only [progByte, hv]
  · rw [progByte_unlisted hn, if_pos ha]
  · rw [progByte_unlisted hn, ha, if_neg Bool.false_ne_true, if_pos hlt]
  · rw [progByte_unlisted hn, ha, if_neg Bool.false_ne_true, if_neg (Nat.not_lt.mpr hle)]

end Sys2Proof.Machine
end

section
/-! PROOFS. Operands: effective addresses, direct and indirect addresses, reading an operand, RAM. -/

namespace Sys2Proof.Machine

variable {i : Instr} {s t : State} {f : Byte} {a : Access} {x : DataAddr}

/-! ### Effective addresses -/

theorem indexedMode_iff : indexedMode s f .access = true ↔ s.cfg.xinst = true ∧ f.toNat ≤ 0x5F := by
  simp [indexedMode, BitVec.le_def]

theorem toNat_indexed (p : DataAddr) (f : Byte) : (p + f.setWidth 12).toNat = (p.toNat + f.toNat) % 4096 := by
  rw [BitVec.toNat_add, BitVec.toNat_setWidth, Nat.add_mod_mod]

/-- `DataAddr(f, a)` of an access operand as a number (R76). -/
theorem dataAddr_access_toNat (s : State) (f : Byte) :
    (dataAddr s f .access).toNat =
      if s.cfg.xinst = true ∧ f.toNat ≤ 0x5F then (s.fsr2.toNat + f.toNat) % 4096
      else if f.toNat < s.cfg.accessSplit.toNat then f.toNat else 0xF00 + f.toNat := by
  rw [dataAddr]
  by_cases hm : s.cfg.xinst = true ∧ f.toNat ≤ 0x5F
  · rw [if_pos hm, if_pos (indexedMode_iff.mpr hm), toNat_indexed]
  · rw [if_neg hm, if_neg (mt indexedMode_iff.mp hm)]
    by_cases hs : f.toNat < s.cfg.accessSplit.toNat
    · rw [if_pos hs, if_pos (BitVec.lt_def.mpr hs), toNat_append_eq]
      simp
    · rw [if_neg hs, if_neg (mt BitVec.lt_def.mp hs), toNat_append_eq]
      rfl

/-- An instruction with a file operand begins by reading its operand, or, not to read it, by resolving it (R86). -/
theorem exec_of_fileOperand (h : i.fileOperand = some (f, a)) (s : State) :
    (∃ k, exec i s = andThen (readOperand (s.advance 2) f a) k) ∨
      ∃ k, exec i s = andThen (resolveOperand (s.advance 2) f a) k := by
  cases i <;> cases h
  case clrf | movwf | setf => exact .inr ⟨_, rfl⟩
  all_goals exact .inl ⟨_, rfl⟩

/-- An operand that does not resolve stops its instruction. -/
theorem exec_of_resolve_error {e : Fault} (hf : i.fileOperand = some (f, a))
    (h : resolveOperand (s.advance 2) f a = .error e) : exec i s = .fault e := by
  rcases exec_of_fileOperand hf s with ⟨k, hk⟩ | ⟨k, hk⟩
  · rw [hk, readOperand, h]
    rfl
  · rw [hk, h]
    rfl

/-- Settles O42: by the cases of the effective address; the operand on a virtual register does not resolve. -/
theorem effectiveAddress : Obligations.EffectiveAddress := by
  intro s f
  refine ⟨toNat_append_eq s.bsr f, dataAddr_access_toNat s f, fun hx hf hv i hi => exec_of_resolve_error hi ?_⟩
  have hm : indexedMode (s.advance 2) f .access = true := indexedMode_iff.mpr ⟨hx, hf⟩
  have ha : dataAddr (s.advance 2) f .access = s.fsr2 + f.setWidth 12 := by
    rw [dataAddr, if_pos hm]
    rfl
  rw [resolveOperand, hm, ha, hv]
  rfl

/-! ### Operands in scope -/

theorem resolveOperand_isOk (s : State) (f : Byte) (a : Access) :
    (∃ r, resolveOperand s f a = .ok r) ↔ operandInScope s f a = true := by
  unfold resolveOperand operandInScope
  cases indexedMode s f a && isVirtual (dataAddr s f a)
  · simpa using resolve_isOk s (dataAddr s f a)
  · simp

/-- Reading an operand that resolves is reading its location. -/
theorem readOperand_of_resolve {r : Resolved} {v : Byte} {u : State} (hr : resolveOperand s f a = .ok r)
    (hl : locRead .one r.st r.loc = .ok (v, u)) : readOperand s f a = .ok ⟨r.loc, v, u⟩ := by
  simp only [readOperand, hr, hl]

/-- An operand read was resolved once, and its location read. -/
theorem locRead_of_readOperand {r : Resolved} {l : Loc} {v : Byte} {u : State} (hr : resolveOperand s f a = .ok r)
    (h : readOperand s f a = .ok ⟨l, v, u⟩) : l = r.loc ∧ locRead .one r.st r.loc = .ok (v, u) := by
  obtain ⟨st, hst, hl⟩ := readOperand_ok h
  cases hr.symm.trans hst
  exact ⟨rfl, hl⟩

/-- Settles O44: the operand's address resolves if in scope, and its location reads if readable. -/
theorem operandsInScopeCanBeRead : Obligations.OperandsInScopeCanBeRead := by
  intro s f a
  refine ⟨resolveOperand_isOk s f a, fun r hr => ⟨?_, fun l v u h => locRead_of_readOperand hr h⟩⟩
  rw [← locRead_isOk]
  constructor
  · rintro ⟨v, u, h⟩
    exact ⟨(v, u), (locRead_of_readOperand hr h).2⟩
  · rintro ⟨⟨v, u⟩, h⟩
    exact ⟨v, u, readOperand_of_resolve hr h⟩

/-! ### Indirect access -/

/-- A virtual register reaches the target of its kind and leaves its FSR as the kind says (R82). -/
theorem resolve_virtual {k : IndirectKind} {n : FsrNum} (h : coreEntry x = some (.virtual k n)) (s : State) :
    ReachesThrough s x n (indirectTarget s k n).1 (indirectTarget s k n).2 := by
  have hcfg (p : DataAddr) (y : DataAddr) : resolveDirect (s.setFsr n p) y = resolveDirect s y :=
    resolveDirect_congr (State.setFsr_cfg s n p) y
  refine ⟨fun hv => ?_, fun hv => ⟨fun l hl => ?_, fun e he => ?_⟩⟩
  · simp only [resolve, h, hv, if_true]
  · simp only [resolve, h, hv, Bool.false_eq_true, if_false, hcfg, hl]
  · simp only [resolve, h, hv, Bool.false_eq_true, if_false, hcfg, he]

/-- PLUSW's offset is WREG as a signed number (R82). -/
theorem add_signExtend_eq (p : DataAddr) (w : Byte) :
    p + w.signExtend 12 = BitVec.ofInt 12 (p.toInt + w.toInt) := by
  rw [BitVec.ofInt_add, BitVec.ofInt_toInt, BitVec.signExtend]

/-- Settles O45: the five kinds of `indirectTarget`. -/
theorem indirectAccessTargets : Obligations.IndirectAccessTargets := by
  intro s a n
  refine ⟨fun h => resolve_virtual h s, fun h => resolve_virtual h s, fun h => resolve_virtual h s,
    fun h => resolve_virtual h s, fun h => ?_⟩
  rw [← add_signExtend_eq]
  exact resolve_virtual h s

/-! ### Direct addresses -/

/-- An address that is no virtual register resolves directly and moves no pointer (R81). -/
theorem resolve_of_not_virtual (h : isVirtual x = false) (s : State) :
    resolve s x = (resolveDirect s x).map fun l => ⟨l, s⟩ := by
  unfold resolve
  split
  · rename_i k n hk
    exact absurd hk (isVirtual_false_iff.mp h k n)
  · cases resolveDirect s x <;> rfl

theorem resolveDirect_of_no_entry (h : coreEntry x = none) (s : State) :
    resolveDirect s x =
      if x.toNat < s.cfg.ramBytes then .ok (.ram x)
      else if s.cfg.admitted || decide (s.cfg.sfrBase ≤ x) then .error (.outOfScopeData x)
      else .ok .null := by
  simp only [resolveDirect, h]

/-- Settles O46: by the cases of direct resolution. -/
theorem directAddresses : Obligations.DirectAddresses := by
  intro s a hv
  refine ⟨fun r hr => resolve_core hr s, fun hn hlt => ?_, fun hn hle hsfr => ?_,
    fun hn hle hsfr => ⟨fun ha => ?_, fun ha => ?_⟩, fun ws v => ⟨rfl, rfl⟩⟩ <;>
    rw [resolve_of_not_virtual hv, resolveDirect_of_no_entry hn]
  · rw [if_pos hlt]
    rfl
  · rw [if_neg (Nat.not_lt.mpr hle), decide_eq_true hsfr, Bool.or_true]
    rfl
  · rw [if_neg (Nat.not_lt.mpr hle), ha]
    rfl
  · rw [if_neg (Nat.not_lt.mpr hle), ha, decide_eq_false (BitVec.not_le.mpr hsfr)]
    rfl

/-! ### RAM -/

theorem ramByte_unwritten {b : DataAddr} (h : s.ram.read b.toNat = none) :
    ramByte s b = if s.cfg.admitted then .error .unwrittenRead else .ok (Config.powerUpByte b.toNat) := by
  simp only [ramByte, h]

/-- Settles O47: by a read of a memory after a write. -/
theorem ramReadsWhatWasWritten : Obligations.RamReadsWhatWasWritten := by
  intro s t a v ws h
  cases h
  refine ⟨?_, fun b hb => ?_, fun b hn ha => ?_, fun b hn ha => ⟨Config.powerUpByte b.toNat, ?_⟩⟩
  · simp only [locRead, ramByte, Memory.read_write_same]
  · have hne : b.toNat ≠ a.toNat := mt BitVec.eq_of_toNat_eq hb
    simp only [ramByte, Memory.read_write_other _ _ hne]
  · rw [ramByte_unwritten hn, if_pos ha]
  · rw [ramByte_unwritten hn, ha, if_neg Bool.false_ne_true]

end Sys2Proof.Machine
end

section
/-! PROOFS. The layouts of the core registers: what each reads as after a write, and what a write leaves. -/

namespace Sys2Proof.Machine

variable {s t : State} {v : Byte} {r q : Sfr}

/-! ### Bytes put together and taken apart -/

/-- Taking a number apart into its two low bytes and the rest, and putting it together again. -/
theorem parts_eq {m : Nat} (p : BitVec (m + 8 + 8)) :
    p.extractLsb' 16 m ++ p.extractLsb' 8 8 ++ p.extractLsb' 0 8 = p := by
  apply BitVec.eq_of_toNat_eq
  have hp := p.isLt
  simp only [toNat_append_eq, toNat_extract, pow_add] at *
  have h : p.toNat / 2 ^ 16 < 2 ^ m := Nat.div_lt_of_lt_mul (by omega)
  rw [Nat.mod_eq_of_lt h]
  omega

theorem append_upper {m : Nat} (x : BitVec m) (y z : Byte) : (x ++ y ++ z).extractLsb' 16 m = x := by
  rw [BitVec.extractLsb'_append_eq_of_le (by decide), BitVec.extractLsb'_append_eq_left]

theorem append_high {m : Nat} (x : BitVec m) (y z : Byte) : (x ++ y ++ z).extractLsb' 8 8 = y := by
  rw [BitVec.extractLsb'_append_eq_of_le (by decide), BitVec.extractLsb'_append_eq_right]

/-- TBLPTR with a new upper part, part by part. -/
theorem append_low16 (x : BitVec 6) (p : TblAddr) :
    (x ++ p.extractLsb' 0 16 : TblAddr) = x ++ p.extractLsb' 8 8 ++ p.extractLsb' 0 8 := by
  apply BitVec.eq_of_toNat_eq
  simp only [toNat_append_eq, toNat_extract]
  omega

/-- TBLPTR with a new low byte, part by part. -/
theorem high14_append (p : TblAddr) (z : Byte) :
    (p.extractLsb' 8 14 ++ z : TblAddr) = p.extractLsb' 16 6 ++ p.extractLsb' 8 8 ++ z := by
  apply BitVec.eq_of_toNat_eq
  simp only [toNat_append_eq, toNat_extract]
  omega

/-- A byte put in place in a program address, part by part. -/
theorem replaceByte_low (p : ProgAddr) (v : Byte) :
    replaceByte p 0 v = p.extractLsb' 16 5 ++ p.extractLsb' 8 8 ++ v := by
  apply BitVec.eq_of_getLsbD_eq
  intro i hi
  rw [BitVec.getLsbD_append, BitVec.getLsbD_append]
  interval_cases i <;> simp [replaceByte]

theorem replaceByte_high (p : ProgAddr) (v : Byte) :
    replaceByte p 1 v = p.extractLsb' 16 5 ++ v ++ p.extractLsb' 0 8 := by
  apply BitVec.eq_of_getLsbD_eq
  intro i hi
  rw [BitVec.getLsbD_append, BitVec.getLsbD_append]
  interval_cases i <;> simp [replaceByte]

theorem replaceByte_upper (p : ProgAddr) (v : Byte) :
    replaceByte p 2 v = v.extractLsb' 0 5 ++ p.extractLsb' 8 8 ++ p.extractLsb' 0 8 := by
  apply BitVec.eq_of_getLsbD_eq
  intro i hi
  rw [BitVec.getLsbD_append, BitVec.getLsbD_append]
  interval_cases i <;> simp [replaceByte]

/-! #### The implemented bits of a byte -/

theorem low4_eq_mask (v : Byte) : 0x0#4 ++ v.extractLsb' 0 4 = v &&& 0x0F := by
  revert v
  decide

theorem low5_eq_mask (v : Byte) : 0b000#3 ++ v.extractLsb' 0 5 = v &&& 0x1F := by
  revert v
  decide

theorem low6_eq_mask (v : Byte) : 0b00#2 ++ v.extractLsb' 0 6 = v &&& 0x3F := by
  revert v
  decide

/-! ### The registers of more than one byte after a write -/

theorem sfrWrite_frame (h : sfrWrite s r v = .ok t) : WriteFrame s (.reg r) t := locWrite_frame h

theorem reg_ne (h : r ≠ q) : Loc.reg r ≠ .reg q := mt Loc.reg.inj h

/-- TBLPTR after a write of a core register: its byte, if the register is one, is the one written. -/
theorem tblptr_of_write (h : sfrWrite s r v = .ok t) :
    t.tblptr = (if r = .tblptru then v.extractLsb' 0 6 else s.tblptr.extractLsb' 16 6) ++
      (if r = .tblptrh then v else s.tblptr.extractLsb' 8 8) ++
      (if r = .tblptrl then v else s.tblptr.extractLsb' 0 8) := by
  by_cases hu : r = .tblptru
  · subst hu
    cases h
    exact append_low16 ..
  by_cases hh : r = .tblptrh
  · subst hh
    cases h
    rfl
  by_cases hl : r = .tblptrl
  · subst hl
    cases h
    exact high14_append ..
  · rw [if_neg hu, if_neg hh, if_neg hl, parts_eq]
    exact (sfrWrite_frame h).tblptr (reg_ne hu) (reg_ne hh) (reg_ne hl)

theorem fsr_of_write (h : sfrWrite s r v = .ok t) (n : FsrNum) :
    t.fsr n = (if r = .fsrh n then v.extractLsb' 0 4 else (s.fsr n).extractLsb' 8 4) ++
      (if r = .fsrl n then v else (s.fsr n).extractLsb' 0 8) := by
  by_cases hh : r = .fsrh n
  · subst hh
    cases h
    simp
  by_cases hl : r = .fsrl n
  · subst hl
    cases h
    simp
  · rw [if_neg hh, if_neg hl, (sfrWrite_frame h).fsr n (reg_ne hh) (reg_ne hl)]
    apply BitVec.eq_of_toNat_eq
    rw [toNat_append_eq, toNat_extract, toNat_extract]
    have hlt := (s.fsr n).isLt
    omega

theorem State.tos_setTos (h : s.sp ≠ 0) (p : ProgAddr) : (s.setTos p).tos = p := by
  have hsp := s.sp.isLt
  have h0 : s.sp.toNat ≠ 0 := mt (fun h' => BitVec.eq_of_toNat_eq h') h
  rw [State.tos, State.setTos_sp, if_neg h, State.setTos_stack, if_neg h, Vector.getElem?_setIfInBounds,
    if_pos rfl, if_pos (by omega)]
  rfl

theorem State.tos_congr (hsp : t.sp = s.sp) (hstack : t.stack = s.stack) : t.tos = s.tos := by
  rw [State.tos, State.tos, hsp, hstack]

/-- The top of the stack after a write of a core register that leaves SP. -/
theorem tos_of_write (h : sfrWrite s r v = .ok t) (hr : r ≠ .stkptr) (h0 : s.sp ≠ 0) :
    t.tos = (if r = .tosu then v.extractLsb' 0 5 else s.tos.extractLsb' 16 5) ++
      (if r = .tosh then v else s.tos.extractLsb' 8 8) ++
      (if r = .tosl then v else s.tos.extractLsb' 0 8) := by
  by_cases hu : r = .tosu
  · subst hu
    rw [tosWrite_ok h, State.tos_setTos h0, replaceByte_upper]
    rfl
  by_cases hh : r = .tosh
  · subst hh
    rw [tosWrite_ok h, State.tos_setTos h0, replaceByte_high]
    rfl
  by_cases hl : r = .tosl
  · subst hl
    rw [tosWrite_ok h, State.tos_setTos h0, replaceByte_low]
    rfl
  · have hf := sfrWrite_frame h
    rw [if_neg hu, if_neg hh, if_neg hl, parts_eq]
    exact State.tos_congr (hf.sp (reg_ne hr)) (hf.stack (reg_ne hu) (reg_ne hh) (reg_ne hl))

/-- With SP at 0 there is no entry, and TOS reads 0 whatever is written. -/
theorem tos_of_write_empty (h : sfrWrite s r v = .ok t) (hr : r ≠ .stkptr) (h0 : s.sp = 0) : t.tos = s.tos := by
  rw [State.tos, State.tos, (sfrWrite_frame h).sp (reg_ne hr), if_pos h0, if_pos h0]

/-! ### What a register reads as after a write of another -/

/-- The bytes of TOS after a write of another register (R38). -/
theorem tosByte_of_write_other (h : sfrWrite s r v = .ok t) (hr : r ≠ .stkptr) :
    (r ≠ .tosu → sfrByte t .tosu = sfrByte s .tosu) ∧ (r ≠ .tosh → sfrByte t .tosh = sfrByte s .tosh) ∧
      (r ≠ .tosl → sfrByte t .tosl = sfrByte s .tosl) := by
  simp only [sfrByte]
  by_cases h0 : s.sp = 0
  · rw [tos_of_write_empty h hr h0]
    exact ⟨fun _ => rfl, fun _ => rfl, fun _ => rfl⟩
  · rw [tos_of_write h hr h0, append_upper, append_high, BitVec.extractLsb'_append_eq_right]
    exact ⟨fun hu => by rw [if_neg hu], fun hh => if_neg hh, fun hl => if_neg hl⟩

theorem sfrByte_of_write_other (h : sfrWrite s r v = .ok t) (hq : q ≠ r)
    (hs : r = .stkptr → ¬ (q = .tosu ∨ q = .tosh ∨ q = .tosl)) : sfrByte t q = sfrByte s q := by
  have hf := sfrWrite_frame h
  have hr := hq.symm
  have hl := reg_ne hr
  cases q
  case tosu => exact (tosByte_of_write_other h fun hp => hs hp (.inl rfl)).1 hr
  case tosh => exact (tosByte_of_write_other h fun hp => hs hp (.inr (.inl rfl))).2.1 hr
  case tosl => exact (tosByte_of_write_other h fun hp => hs hp (.inr (.inr rfl))).2.2 hr
  case stkptr => simp only [sfrByte, hf.stkful hl, hf.stkunf hl, hf.sp hl]
  case pclatu => simp only [sfrByte, hf.pclatu hl]
  case pclath => exact hf.pclath hl
  case pcl => simp only [sfrByte, hf.pc hl]
  case tblptru => simp only [sfrByte, tblptr_of_write h, append_upper, if_neg hr]
  case tblptrh => simp only [sfrByte, tblptr_of_write h, append_high, if_neg hr]
  case tblptrl => simp only [sfrByte, tblptr_of_write h, BitVec.extractLsb'_append_eq_right, if_neg hr]
  case tablat => exact hf.tablat hl
  case prodh => exact hf.prodh hl
  case prodl => exact hf.prodl hl
  case intcon => simp only [sfrByte, hf.gieh hl, hf.giel hl]
  case fsrh n => simp only [sfrByte, fsr_of_write h, BitVec.extractLsb'_append_eq_left, if_neg hr]
  case fsrl n => simp only [sfrByte, fsr_of_write h, BitVec.extractLsb'_append_eq_right, if_neg hr]
  case wreg => exact hf.wreg hl
  case bsr => simp only [sfrByte, hf.bsr hl]
  case status => simp only [sfrByte, hf.flags hl]
  case rcon => simp only [sfrByte, hf.rcon hl]

/-! ### What a register reads as after a write of it -/

theorem high2_eq_mask (v : Byte) :
    BitVec.ofBool (v.getLsbD 7) ++ BitVec.ofBool (v.getLsbD 6) ++ 0#6 = v &&& 0xC0 := by
  revert v
  decide

/-- The bits of INTCON whose setting is out of scope (R46). -/
theorem bits5to3_eq_zero_iff (v : Byte) : v.extractLsb' 3 3 = 0 ↔ v &&& 0x38 = 0 := by
  revert v
  decide

/-- INTCON keeps bits 7:6 (log entry 23). -/
theorem intconByte_of_write (h : sfrWrite s .intcon v = .ok t) : sfrByte t .intcon = v &&& 0xC0 := by
  simp only [sfrWrite] at h
  split at h
  · cases h
    exact high2_eq_mask v
  · cases h

/-- A write of INTCON that sets any of bits 5:3 stops (R46). -/
theorem sfrWrite_intcon_stops_iff : v &&& 0x38 ≠ 0 ↔ sfrWrite s .intcon v = .error .outOfScopeSfr := by
  rw [ne_eq, ← bits5to3_eq_zero_iff]
  by_cases h : v.extractLsb' 3 3 = 0 <;> simp [sfrWrite, h]

/-- RCON keeps TO and PD, bit 5 reads 0, and the other bits are those written (R45). -/
theorem rconByte_of_write (h : sfrWrite s .rcon v = .ok t) :
    sfrByte t .rcon = (v &&& 0xD3) ||| (sfrByte s .rcon &&& 0x0C) := by
  cases h
  apply BitVec.eq_of_getLsbD_eq
  intro i hi
  simp only [sfrByte, BitVec.getLsbD_or, BitVec.getLsbD_and, BitVec.getLsbD_append]
  interval_cases i <;> simp

/-- With an entry at SP the bytes of TOS are that entry's (R38). -/
theorem tosByte_of_write (h0 : s.sp ≠ 0) :
    (sfrWrite s .tosu v = .ok t → sfrByte t .tosu = v &&& 0x1F) ∧
      (sfrWrite s .tosh v = .ok t → sfrByte t .tosh = v) ∧ (sfrWrite s .tosl v = .ok t → sfrByte t .tosl = v) := by
  refine ⟨fun h => ?_, fun h => ?_, fun h => ?_⟩ <;>
    rw [sfrByte, tos_of_write h (by decide) h0]
  · rw [append_upper, if_pos rfl, low5_eq_mask]
  · rw [append_high, if_pos rfl]
  · rw [BitVec.extractLsb'_append_eq_right, if_pos rfl]

/-! ### The entries of the stack -/

/-- A write of a byte of TOS leaves every entry but entry SP, of any other register every entry (R38). -/
theorem stack_of_write (h : sfrWrite s r v = .ok t) :
    (∀ k : Nat, k + 1 ≠ s.sp.toNat → t.stack[k]? = s.stack[k]?) ∧
      (¬ (r = .tosu ∨ r = .tosh ∨ r = .tosl) → t.stack = s.stack) := by
  have hother (hr : ¬ (r = .tosu ∨ r = .tosh ∨ r = .tosl)) : t.stack = s.stack := by
    obtain ⟨hu, hh, hl⟩ : r ≠ .tosu ∧ r ≠ .tosh ∧ r ≠ .tosl := by simpa using hr
    exact (sfrWrite_frame h).stack (reg_ne hu) (reg_ne hh) (reg_ne hl)
  refine ⟨fun k hk => ?_, hother⟩
  by_cases hr : r = .tosu ∨ r = .tosh ∨ r = .tosl
  · obtain ⟨p, rfl⟩ : ∃ p, t = s.setTos p := by
      rcases hr with rfl | rfl | rfl <;> exact ⟨_, tosWrite_ok h⟩
    rw [State.setTos_stack]
    split
    · rfl
    · rename_i h0
      have hsp : s.sp.toNat ≠ 0 := mt (fun h' => BitVec.eq_of_toNat_eq h') h0
      rw [Vector.getElem?_setIfInBounds, if_neg (by omega)]
  · rw [hother hr]

/-- Settles O48: each register reads as the bits of it that a write changes, and another as before. -/
theorem coreRegisterLayouts : Obligations.CoreRegisterLayouts := by
  intro s t v n same isTos
  have whole {r : Sfr} (h : sfrWrite s r v = .ok t → sfrByte t r = v) : same r 0xFF :=
    fun hw => (h hw).trans BitVec.and_allOnes.symm
  refine ⟨⟨?_, ?_, ?_, ?_, ?_, ?_, ?_, ?_⟩, ⟨?_, ?_, ?_, ?_, ?_⟩,
    ⟨intconByte_of_write, sfrWrite_intcon_stops_iff⟩, rconByte_of_write, fun h0 => ?_,
    fun r q hw hq hs => sfrByte_of_write_other hw hq hs, fun r hw => stack_of_write hw⟩
  · exact whole fun h => by cases h; rfl
  · exact whole fun h => by cases h; rfl
  · exact whole fun h => by cases h; rfl
  · exact whole fun h => by cases h; rfl
  · exact whole fun h => by cases h; rfl
  · exact whole fun h => by rw [sfrByte, fsr_of_write h, BitVec.extractLsb'_append_eq_right, if_pos rfl]
  · exact whole fun h => by rw [sfrByte, tblptr_of_write h, append_high, if_pos rfl]
  · exact whole fun h => by rw [sfrByte, tblptr_of_write h, BitVec.extractLsb'_append_eq_right, if_pos rfl]
  · intro h
    cases h
    exact low4_eq_mask v
  · intro h
    rw [sfrByte, fsr_of_write h, BitVec.extractLsb'_append_eq_left, if_pos rfl, low4_eq_mask]
  · intro h
    cases h
    exact low5_eq_mask v
  · intro h
    rw [sfrByte, tblptr_of_write h, append_upper, if_pos rfl, low6_eq_mask]
  · intro h
    cases h
    exact Flags.toByte_ofByte v
  · obtain ⟨hu, hh, hl⟩ := tosByte_of_write (v := v) (t := t) h0
    exact ⟨hu, whole hh, whole hl⟩

end Sys2Proof.Machine
end

section
/-! PROOFS. Decoding the words of a well-formed instruction gives the instruction back. -/

namespace Sys2Proof

variable {i : Instr} {r : Row} {xinst : Bool} {w v : Word} {f : Byte} {d : Dest} {a : Access}

/-! ### What it takes to decode an instruction's own words -/

/-- Row `r` reads instruction `i` from a list of words. -/
def Row.ReadsFrom (r : Row) (i : Instr) : List Word → Prop
  | [w] => r.two = false ∧ r.build w 0 = i
  | [w, v] => r.two = true ∧ v &&& r.mask2 = r.pattern2 ∧ r.build w v = i
  | _ => False

/-- Row `r` is the one the first word of `i` selects; it is of the set of `i`, and reads `i` from the words of `i`. -/
structure RowOf (i : Instr) (r : Row) : Prop where
  selected : lookupRow (firstWord i) = some r
  extended : r.extended = i.isExtended
  reads : r.ReadsFrom i (encode i)

theorem decodeFirst_of_enabled (h : lookupRow w = some r) (hx : r.extended = true → xinst = true) :
    decodeFirst xinst w = .ok r := by
  refine decodeFirst_of_row h ?_
  cases he : r.extended with
  | false => rfl
  | true => rw [hx he]; rfl

theorem RowOf.decodeFirst_eq (h : RowOf i r) (hx : i.isExtended = true → xinst = true) :
    decodeFirst xinst (firstWord i) = .ok r :=
  decodeFirst_of_enabled h.selected (h.extended ▸ hx)

/-- An instruction with a row has one word, or two of which the second has the form that the row asks for. -/
theorem RowOf.words (h : RowOf i r) :
    (encode i = [firstWord i] ∧ r.two = false ∧ r.build (firstWord i) 0 = i) ∨
      ∃ v, encode i = [firstWord i, v] ∧ r.two = true ∧ v &&& r.mask2 = r.pattern2 ∧
        r.build (firstWord i) v = i := by
  have hr := h.reads
  unfold firstWord
  match encode i, hr with
  | [w], hr => exact .inl ⟨rfl, hr⟩
  | [w, v], hr => exact .inr ⟨v, rfl, hr⟩

theorem decodeBytes_of_one_word (hd : decodeFirst xinst w = .ok r) (h2 : r.two = false) (rest : List Byte) :
    decodeBytes xinst ([w].flatMap bytesOfWord ++ rest) = .ok (r.build w 0, rest) := by
  simp [decodeBytes, bytesOfWord, wordOfBytes_bytesOfWord, hd, h2, decodeSecond_one h2]

theorem decodeBytes_of_two_words (hd : decodeFirst xinst w = .ok r) (h2 : r.two = true)
    (hv : v &&& r.mask2 = r.pattern2) (rest : List Byte) :
    decodeBytes xinst ([w, v].flatMap bytesOfWord ++ rest) = .ok (r.build w v, rest) := by
  simp [decodeBytes, bytesOfWord, wordOfBytes_bytesOfWord, hd, h2, decodeSecond_two h2 w hv]

theorem RowOf.decodeBytes_eq (h : RowOf i r) (hx : i.isExtended = true → xinst = true) (rest : List Byte) :
    decodeBytes xinst (encodeBytes i ++ rest) = .ok (i, rest) := by
  have hd := h.decodeFirst_eq hx
  obtain ⟨he, h2, hb⟩ | ⟨v, he, h2, hv, hb⟩ := h.words
  · rw [encodeBytes, he, decodeBytes_of_one_word hd h2, hb]
  · rw [encodeBytes, he, decodeBytes_of_two_words hd h2 hv, hb]

/-- The words of an instruction decode to it; a one-word instruction does so whatever word follows. -/
theorem RowOf.decodeWords_eq (h : RowOf i r) (hx : i.isExtended = true → xinst = true)
    (hw : encode i = [w] ∨ encode i = [w, v]) : decodeWords xinst w v = .ok i := by
  have hd := h.decodeFirst_eq hx
  obtain ⟨he, h2, hb⟩ | ⟨u, he, h2, hu, hb⟩ := h.words
  · obtain rfl : firstWord i = w := by simpa [he] using hw
    simp only [decodeWords, hd, decodeSecond_one h2, hb]
  · obtain ⟨rfl, rfl⟩ : firstWord i = w ∧ u = v := by simpa [he] using hw
    simp only [decodeWords, hd, decodeSecond_two h2 _ hu, hb]

/-! ### The row of an instruction, by the format of its words (R111); a row is named by its place in the table -/

theorem rowOf_one {m p : Word} {b : Word → Instr} (k : Nat) (he : encode i = [w])
    (hk : opcodeRows[k]? = some (row1 m p i.isExtended b)) (hf : w &&& m = p) (hb : b w = i) : ∃ r, RowOf i r := by
  refine ⟨_, lookupRow_of_fits (List.mem_of_getElem? hk) ?_, rfl, ?_⟩
  · simp [Row.fits, row1, firstWord, he, hf]
  · rw [he]
    exact ⟨rfl, hb⟩

theorem rowOf_two {m p m2 p2 : Word} {b : Word → Word → Instr} (k : Nat) (he : encode i = [w, v])
    (hk : opcodeRows[k]? = some (row2 m p m2 p2 i.isExtended b)) (hf : w &&& m = p) (hv : v &&& m2 = p2)
    (hb : b w v = i) : ∃ r, RowOf i r := by
  refine ⟨_, lookupRow_of_fits (List.mem_of_getElem? hk) ?_, rfl, ?_⟩
  · simp [Row.fits, row2, firstWord, he, hf]
  · rw [he]
    exact ⟨rfl, hv, hb⟩

/-- An instruction without operands. -/
theorem rowOf_fixed (k : Nat) (he : encode i = [w])
    (hk : opcodeRows[k]? = some (row1 0xFFFF w i.isExtended fun _ => i)) : ∃ r, RowOf i r :=
  rowOf_one k he hk BitVec.and_allOnes rfl

theorem rowOf_fda (mk : Byte → Dest → Access → Instr) (k : Nat) {op : BitVec 6}
    (he : encode (mk f d a) = [wordFDA op f d a])
    (hk : opcodeRows[k]? = some (row1 0xFC00 (op ++ 0#1 ++ 0#1 ++ 0#8) (mk f d a).isExtended
      fun w => mk w.low8 w.destBit w.accessBit)) : ∃ r, RowOf (mk f d a) r :=
  rowOf_one k he hk (wordFDA_fixed op f d a) (by rw [wordFDA_low8, wordFDA_destBit, wordFDA_accessBit])

theorem rowOf_fa (mk : Byte → Access → Instr) (k : Nat) {op : BitVec 7} (he : encode (mk f a) = [wordFA op f a])
    (hk : opcodeRows[k]? = some (row1 0xFE00 (op ++ 0#1 ++ 0#8) (mk f a).isExtended
      fun w => mk w.low8 w.accessBit)) : ∃ r, RowOf (mk f a) r :=
  rowOf_one k he hk (wordFA_fixed op f a) (by rw [wordFA_low8, wordFA_accessBit])

theorem rowOf_fba (mk : Byte → BitVec 3 → Access → Instr) (k : Nat) {op : BitVec 4} {b : BitVec 3}
    (he : encode (mk f b a) = [wordFBA op f b a])
    (hk : opcodeRows[k]? = some (row1 0xF000 (op ++ 0#3 ++ 0#1 ++ 0#8) (mk f b a).isExtended
      fun w => mk w.low8 w.bitNumber w.accessBit)) : ∃ r, RowOf (mk f b a) r :=
  rowOf_one k he hk (wordFBA_fixed op f b a) (by rw [wordFBA_low8, wordFBA_bitNumber, wordFBA_accessBit])

theorem rowOf_op8 (mk : Byte → Instr) (k : Nat) {op n : Byte} (he : encode (mk n) = [wordOp8 op n])
    (hk : opcodeRows[k]? = some (row1 0xFF00 (op ++ 0#8) (mk n).isExtended fun w => mk w.low8)) :
    ∃ r, RowOf (mk n) r :=
  rowOf_one k he hk (wordOp8_fixed op n) (by rw [wordOp8_low8])

theorem rowOf_br11 (mk : BitVec 11 → Instr) (k : Nat) {op : BitVec 5} {n : BitVec 11}
    (he : encode (mk n) = [wordBr11 op n])
    (hk : opcodeRows[k]? = some (row1 0xF800 (op ++ 0#11) (mk n).isExtended fun w => mk (w.extractLsb' 0 11))) :
    ∃ r, RowOf (mk n) r :=
  rowOf_one k he hk (wordBr11_fixed op n) (by rw [wordBr11_low11])

theorem rowOf_fsrK6 (mk : BitVec 2 → BitVec 6 → Instr) (k : Nat) {op : Byte} {n : BitVec 2} {j : BitVec 6}
    (he : encode (mk n j) = [wordFsrK6 op n j])
    (hk : opcodeRows[k]? = some (row1 0xFFC0 (op ++ n ++ 0#6) (mk n j).isExtended
      fun w => mk (w.extractLsb' 6 2) (w.extractLsb' 0 6))) : ∃ r, RowOf (mk n j) r :=
  rowOf_one k he hk (wordFsrK6_fixed op n j) (by rw [wordFsrK6_number, wordFsrK6_literal])

theorem fastBit_getLsbD (s : Bool) : (fastBit s).getLsbD 0 = s := by
  cases s <;> rfl

/-- `RETFIE` and `RETURN`: fifteen fixed bits and `s`. -/
theorem rowOf_fast (mk : Bool → Instr) (k : Nat) {op : BitVec 15} {s : Bool} (he : encode (mk s) = [op ++ fastBit s])
    (hk : opcodeRows[k]? = some (row1 0xFFFE (op ++ 0#1) (mk s).isExtended fun w => mk (w.getLsbD 0))) :
    ∃ r, RowOf (mk s) r :=
  rowOf_one k he hk (and_upper op (fastBit s)) (by rw [getLsbD_low _ _ 0 (by decide), fastBit_getLsbD])

/-! ### The operands that two words hold between them -/

/-- The target of `CALL` and `GOTO`, its low byte in the first word and the rest in the second. -/
theorem target_eq_append {k : BitVec 20} (h : w.low8 = k.extractLsb' 0 8) :
    (wordSecond (k.extractLsb' 8 12)).low12 ++ w.low8 = k := by
  rw [wordSecond_low12, h, append_extract (n := 12) (m := 8) k]

theorem wordCall_fast (op : BitVec 7) (s : Bool) (n : Byte) : (op ++ fastBit s ++ n).getLsbD 8 = s :=
  ((getLsbD_high _ _ 0).trans (getLsbD_low _ _ 0 (by decide))).trans (fastBit_getLsbD s)

theorem wordMovss_low7 (z : BitVec 7) : (wordSecond (0b00000#5 ++ z)).extractLsb' 0 7 = z :=
  (extract_in_low _ _ 0 7 (by decide)).trans (extract_low _ _)

/-- The FSR numbers of a well-formed instruction. -/
theorem fsr_cases {n : BitVec 2} (h : (n != 3) = true) : n = 0 ∨ n = 1 ∨ n = 2 := by
  revert n
  decide

theorem rowOf_lfsr {n : BitVec 2} {j : BitVec 12} (k : Nat)
    (hk : opcodeRows[k]? = some (row2 0xFFF0 (0b1110111000#10 ++ n ++ 0#4) 0xFF00 0xF000 false
      fun w v => .lfsr (w.extractLsb' 4 2) (w.extractLsb' 0 4 ++ v.low8))) : ∃ r, RowOf (.lfsr n j) r := by
  refine rowOf_two k rfl hk (and_upper _ _) (wordOp8_fixed _ _) (congrArg₂ _ ?_ ?_)
  · exact (extract_in_high _ _ 0 2).trans (extract_low _ _)
  · rw [wordOp8_low8, extract_low, append_extract (n := 4) (m := 8) j]

/-! ### Every well-formed instruction -/

theorem exists_rowOf (h : i.wellFormed = true) : ∃ r, RowOf i r := by
  cases i with
  | addwf f d a => exact rowOf_fda .addwf 0 rfl rfl
  | addwfc f d a => exact rowOf_fda .addwfc 1 rfl rfl
  | andwf f d a => exact rowOf_fda .andwf 2 rfl rfl
  | clrf f a => exact rowOf_fa .clrf 3 rfl rfl
  | comf f d a => exact rowOf_fda .comf 4 rfl rfl
  | cpfseq f a => exact rowOf_fa .cpfseq 5 rfl rfl
  | cpfsgt f a => exact rowOf_fa .cpfsgt 6 rfl rfl
  | cpfslt f a => exact rowOf_fa .cpfslt 7 rfl rfl
  | decf f d a => exact rowOf_fda .decf 8 rfl rfl
  | decfsz f d a => exact rowOf_fda .decfsz 9 rfl rfl
  | dcfsnz f d a => exact rowOf_fda .dcfsnz 10 rfl rfl
  | incf f d a => exact rowOf_fda .incf 11 rfl rfl
  | incfsz f d a => exact rowOf_fda .incfsz 12 rfl rfl
  | infsnz f d a => exact rowOf_fda .infsnz 13 rfl rfl
  | iorwf f d a => exact rowOf_fda .iorwf 14 rfl rfl
  | movf f d a => exact rowOf_fda .movf 15 rfl rfl
  | movff fs fd =>
    exact rowOf_two 16 rfl rfl (and_upper _ fs) (wordSecond_fixed fd)
      (congrArg₂ _ (extract_low _ fs) (wordSecond_low12 fd))
  | movwf f a => exact rowOf_fa .movwf 17 rfl rfl
  | mulwf f a => exact rowOf_fa .mulwf 18 rfl rfl
  | negf f a => exact rowOf_fa .negf 19 rfl rfl
  | rlcf f d a => exact rowOf_fda .rlcf 20 rfl rfl
  | rlncf f d a => exact rowOf_fda .rlncf 21 rfl rfl
  | rrcf f d a => exact rowOf_fda .rrcf 22 rfl rfl
  | rrncf f d a => exact rowOf_fda .rrncf 23 rfl rfl
  | setf f a => exact rowOf_fa .setf 24 rfl rfl
  | subfwb f d a => exact rowOf_fda .subfwb 25 rfl rfl
  | subwf f d a => exact rowOf_fda .subwf 26 rfl rfl
  | subwfb f d a => exact rowOf_fda .subwfb 27 rfl rfl
  | swapf f d a => exact rowOf_fda .swapf 28 rfl rfl
  | tstfsz f a => exact rowOf_fa .tstfsz 29 rfl rfl
  | xorwf f d a => exact rowOf_fda .xorwf 30 rfl rfl
  | bcf f b a => exact rowOf_fba .bcf 31 rfl rfl
  | bsf f b a => exact rowOf_fba .bsf 32 rfl rfl
  | btfsc f b a => exact rowOf_fba .btfsc 33 rfl rfl
  | btfss f b a => exact rowOf_fba .btfss 34 rfl rfl
  | btg f b a => exact rowOf_fba .btg 35 rfl rfl
  | bc n => exact rowOf_op8 .bc 36 rfl rfl
  | bn n => exact rowOf_op8 .bn 37 rfl rfl
  | bnc n => exact rowOf_op8 .bnc 38 rfl rfl
  | bnn n => exact rowOf_op8 .bnn 39 rfl rfl
  | bnov n => exact rowOf_op8 .bnov 40 rfl rfl
  | bnz n => exact rowOf_op8 .bnz 41 rfl rfl
  | bov n => exact rowOf_op8 .bov 42 rfl rfl
  | bra n => exact rowOf_br11 .bra 43 rfl rfl
  | bz n => exact rowOf_op8 .bz 44 rfl rfl
  | call k s =>
    exact rowOf_two 45 rfl rfl (wordCall_fixed k s) (wordSecond_fixed _)
      (congrArg₂ _ (target_eq_append (extract_low _ _)) (wordCall_fast _ s _))
  | clrwdt => exact rowOf_fixed 46 rfl rfl
  | daw => exact rowOf_fixed 47 rfl rfl
  | goto k =>
    exact rowOf_two 48 rfl rfl (wordOp8_fixed _ _) (wordSecond_fixed _)
      (congrArg _ (target_eq_append (wordOp8_low8 _ _)))
  | nop => exact rowOf_fixed 49 rfl rfl
  | nopSecond x => exact rowOf_one 50 rfl rfl (wordSecond_fixed x) (congrArg _ (wordSecond_low12 x))
  | pop => exact rowOf_fixed 51 rfl rfl
  | push => exact rowOf_fixed 52 rfl rfl
  | rcall n => exact rowOf_br11 .rcall 53 rfl rfl
  | reset => exact rowOf_fixed 54 rfl rfl
  | retfie s => exact rowOf_fast .retfie 55 rfl rfl
  | retlw k => exact rowOf_op8 .retlw 56 rfl rfl
  | ret s => exact rowOf_fast .ret 57 rfl rfl
  | sleep => exact rowOf_fixed 58 rfl rfl
  | addlw k => exact rowOf_op8 .addlw 59 rfl rfl
  | andlw k => exact rowOf_op8 .andlw 60 rfl rfl
  | iorlw k => exact rowOf_op8 .iorlw 61 rfl rfl
  | lfsr f k =>
    rcases fsr_cases h with rfl | rfl | rfl
    · exact rowOf_lfsr 62 rfl
    · exact rowOf_lfsr 63 rfl
    · exact rowOf_lfsr 64 rfl
  | movlb k => exact rowOf_one 65 rfl rfl (and_upper _ k) (congrArg _ (extract_low _ k))
  | movlw k => exact rowOf_op8 .movlw 66 rfl rfl
  | mullw k => exact rowOf_op8 .mullw 67 rfl rfl
  | sublw k => exact rowOf_op8 .sublw 68 rfl rfl
  | xorlw k => exact rowOf_op8 .xorlw 69 rfl rfl
  | tblrd => exact rowOf_fixed 70 rfl rfl
  | tblrdPostInc => exact rowOf_fixed 71 rfl rfl
  | tblrdPostDec => exact rowOf_fixed 72 rfl rfl
  | tblrdPreInc => exact rowOf_fixed 73 rfl rfl
  | tblwt => exact rowOf_fixed 74 rfl rfl
  | tblwtPostInc => exact rowOf_fixed 75 rfl rfl
  | tblwtPostDec => exact rowOf_fixed 76 rfl rfl
  | tblwtPreInc => exact rowOf_fixed 77 rfl rfl
  | addfsr f k =>
    rcases fsr_cases h with rfl | rfl | rfl
    · exact rowOf_fsrK6 .addfsr 78 rfl rfl
    · exact rowOf_fsrK6 .addfsr 79 rfl rfl
    · exact rowOf_fsrK6 .addfsr 80 rfl rfl
  | addulnk k => exact rowOf_one 81 rfl rfl (wordFsrK6_fixed _ _ k) (congrArg _ (wordFsrK6_literal _ _ k))
  | callw => exact rowOf_fixed 82 rfl rfl
  | movsf zs fd =>
    exact rowOf_two 83 rfl rfl (and_upper _ zs) (wordSecond_fixed fd)
      (congrArg₂ _ (extract_low _ zs) (wordSecond_low12 fd))
  | movss zs zd =>
    exact rowOf_two 84 rfl rfl (and_upper _ zs) (wordSecond_fixed _)
      (congrArg₂ _ (extract_low _ zs) (wordMovss_low7 zd))
  | pushl k => exact rowOf_op8 .pushl 85 rfl rfl
  | subfsr f k =>
    rcases fsr_cases h with rfl | rfl | rfl
    · exact rowOf_fsrK6 .subfsr 86 rfl rfl
    · exact rowOf_fsrK6 .subfsr 87 rfl rfl
    · exact rowOf_fsrK6 .subfsr 88 rfl rfl
  | subulnk k => exact rowOf_one 89 rfl rfl (wordFsrK6_fixed _ _ k) (congrArg _ (wordFsrK6_literal _ _ k))

/-- Settles O6: the first word selects the row, and the row reads every operand back from its field. -/
theorem decodeOfEncodeGivesInstruction : Obligations.DecodeOfEncodeGivesInstruction := by
  intro xinst i rest hwf hx
  obtain ⟨r, hr⟩ := exists_rowOf hwf
  exact hr.decodeBytes_eq hx rest

/-- The words of a well-formed instruction decode to it. -/
theorem decodeWords_of_encode (hwf : i.wellFormed = true) (hx : i.isExtended = true → xinst = true)
    (hw : encode i = [w] ∨ encode i = [w, v]) : decodeWords xinst w v = .ok i :=
  let ⟨_, hr⟩ := exists_rowOf hwf
  hr.decodeWords_eq hx hw

/-- Settles O7: the words are those that the instructions encode to. -/
theorem specWordsDecode : Obligations.SpecWordsDecode := by
  refine ⟨?_, ?_, ?_, ?_, ?_, ?_, ?_, ?_, ?_⟩ <;> exact decodeWords_of_encode rfl (by decide) (by decide)

end Sys2Proof
end

section
/-! PROOFS. The words that fit a row of the opcode table are a range; these ranges and the reserved words cover all. -/

namespace Sys2Proof

variable {r : Row} {w : Word}

/-! ### The words of a row as a range -/

/-- The first word that fits a row, as a number. -/
def Row.first (r : Row) : Nat := r.pattern.toNat

/-- The last word that fits a row, as a number: every free bit set. -/
def Row.last (r : Row) : Nat := r.pattern.toNat + (~~~r.mask).toNat

/-- Keeping all bits but the low `k`. -/
theorem and_allOnes_shiftLeft {n : Nat} (x : BitVec n) (k : Nat) : x &&& BitVec.allOnes n <<< k = (x >>> k) <<< k := by
  ext j hj
  by_cases hk : j < k
  · simp [hk]
  · simp [hk, hj, Nat.add_sub_cancel' (Nat.not_lt.mp hk)]

theorem toNat_and_upperMask (w : Word) (k : Nat) : (w &&& BitVec.allOnes 16 <<< k).toNat = w.toNat / 2 ^ k * 2 ^ k := by
  have hle : w.toNat / 2 ^ k * 2 ^ k ≤ w.toNat := Nat.div_mul_le_self _ _
  rw [and_allOnes_shiftLeft, BitVec.toNat_shiftLeft, BitVec.toNat_ushiftRight, Nat.shiftRight_eq_div_pow,
    Nat.shiftLeft_eq, Nat.mod_eq_of_lt (by omega)]

theorem toNat_not_upperMask {k : Nat} (hk : k ≤ 16) : (~~~(BitVec.allOnes 16 <<< k)).toNat = 2 ^ k - 1 := by
  have h : 2 ^ k ≤ 2 ^ 16 := Nat.pow_le_pow_right (by decide) hk
  have h0 : 0 < 2 ^ k := Nat.two_pow_pos k
  simp only [BitVec.toNat_not, BitVec.toNat_shiftLeft, BitVec.toNat_allOnes, Nat.shiftLeft_eq]
  omega

/-- The words whose bits but the low `k` are those of `p` are the `2 ^ k` from `p` on. -/
theorem and_upperMask_eq_iff {p m : Word} {k : Nat} (hk : k ≤ 16) (hm : m = BitVec.allOnes 16 <<< k)
    (hp : p &&& m = p) : w &&& m = p ↔ p.toNat ≤ w.toNat ∧ w.toNat ≤ p.toNat + (~~~m).toNat := by
  subst hm
  have h0 : 0 < 2 ^ k := Nat.two_pow_pos k
  have hp' : p.toNat / 2 ^ k * 2 ^ k = p.toNat := by rw [← toNat_and_upperMask, hp]
  rw [← BitVec.toNat_inj, toNat_and_upperMask, toNat_not_upperMask hk]
  constructor
  · intro h
    have := Nat.div_add_mod' w.toNat (2 ^ k)
    have := Nat.mod_lt w.toNat h0
    omega
  · intro ⟨h1, h2⟩
    rw [← hp', show w.toNat / 2 ^ k = p.toNat / 2 ^ k from Nat.div_eq_of_lt_le (by omega) (by rw [Nat.add_mul]; omega)]

/-- The fixed bits of every row are the upper ones. -/
theorem opcodeRows_upperMask : ∀ r ∈ opcodeRows, r.pattern &&& r.mask = r.pattern ∧
    ∃ k ∈ List.range 16, r.mask = BitVec.allOnes 16 <<< k := by
  decide

theorem fits_iff (hr : r ∈ opcodeRows) : r.fits w = true ↔ r.first ≤ w.toNat ∧ w.toNat ≤ r.last := by
  obtain ⟨hp, k, hk, hm⟩ := opcodeRows_upperMask r hr
  rw [Row.fits, beq_iff_eq]
  exact and_upperMask_eq_iff (List.mem_range.mp hk).le hm hp

end Sys2Proof

namespace Sys2Proof.Machine

variable {r : Row} {w : Word}

/-! ### The ranges of the rows and of the reserved words, in order -/

/-- The reserved words (R122) as ranges, each with its first and last word. -/
def reservedRanges : List (Nat × Nat) :=
  [(0x0001, 0x0001), (0x0002, 0x0002), (0x0015, 0x00FE), (0x0110, 0x01FF), (0xEE30, 0xEEFF)]

theorem reservedWord_iff : reservedWord w = true ↔ ∃ q ∈ reservedRanges, q.1 ≤ w.toNat ∧ w.toNat ≤ q.2 := by
  simp only [reservedWord, reservedRanges, List.mem_cons, List.not_mem_nil, or_false, exists_eq_or_imp, exists_eq_left,
    Bool.or_eq_true, Bool.and_eq_true, decide_eq_true_eq, BitVec.le_def, ← BitVec.toNat_inj, BitVec.ofNat_eq_ofNat,
    BitVec.toNat_ofNat]
  omega

/-- Ranges that leave no gap from `n` to the last word. -/
def noGap : Nat → List (Nat × Nat) → Bool
  | n, [] => decide (2 ^ 16 ≤ n)
  | n, q :: qs => decide (q.1 ≤ n) && noGap (q.2 + 1) qs

theorem exists_range_of_noGap {n x : Nat} {qs : List (Nat × Nat)} (h : noGap n qs = true) (hn : n ≤ x)
    (hx : x < 2 ^ 16) : ∃ q ∈ qs, q.1 ≤ x ∧ x ≤ q.2 := by
  induction qs generalizing n with
  | nil => exact absurd (of_decide_eq_true h) (by omega)
  | cons q qs ih =>
    obtain ⟨hq, hqs⟩ : q.1 ≤ n ∧ noGap (q.2 + 1) qs = true := by simpa [noGap] using h
    by_cases hle : x ≤ q.2
    · exact ⟨q, List.mem_cons_self, by omega, hle⟩
    · obtain ⟨p, hp, hpx⟩ := ih hqs (by omega)
      exact ⟨p, List.mem_cons_of_mem q hp, hpx⟩

/-- Where the words of each row, and the reserved words, begin and end. -/
def allRanges : List (Nat × Nat) := opcodeRows.map (fun r => (r.first, r.last)) ++ reservedRanges

/-- Put in order, they leave no word out. -/
theorem allRanges_noGap : noGap 0 (allRanges.insertionSort fun p q => p.1 ≤ q.1) = true := by
  decide

/-- No row's range meets a range of reserved words. -/
theorem opcodeRows_notReserved : ∀ r ∈ opcodeRows, ∀ q ∈ reservedRanges, r.last < q.1 ∨ q.2 < r.first := by
  decide

/-! ### The row of a word -/

theorem lookupRow_eq_some_iff : lookupRow w = some r ↔ r ∈ opcodeRows ∧ r.first ≤ w.toNat ∧ w.toNat ≤ r.last := by
  constructor
  · intro h
    have hf : r.fits w = true := by
      unfold lookupRow at h
      simpa using List.find?_some h
    have hr : r ∈ opcodeRows := List.mem_of_find?_eq_some h
    exact ⟨hr, (fits_iff hr).mp hf⟩
  · intro ⟨hr, hw⟩
    exact lookupRow_of_fits hr ((fits_iff hr).mpr hw)

theorem lookupRow_eq_none_iff : lookupRow w = none ↔ reservedWord w = true := by
  rw [reservedWord_iff]
  constructor
  · intro hn
    obtain ⟨q, hq, hw⟩ := exists_range_of_noGap allRanges_noGap (Nat.zero_le w.toNat) w.isLt
    rcases List.mem_append.mp ((List.mem_insertionSort _).mp hq) with hrow | hres
    · obtain ⟨r, hr, rfl⟩ := List.mem_map.mp hrow
      simp [lookupRow_eq_some_iff.mpr ⟨hr, hw⟩] at hn
    · exact ⟨q, hres, hw⟩
  · intro ⟨q, hq, hw⟩
    by_contra hn
    obtain ⟨r, hr⟩ := Option.ne_none_iff_exists'.mp hn
    obtain ⟨hr, hfits⟩ := lookupRow_eq_some_iff.mp hr
    have := opcodeRows_notReserved r hr q hq
    omega

/-- Settles O8: rows fix different bits, and the ranges of the rows and of the reserved words cover all words. -/
theorem everyWordIsOneRowOrReserved : Obligations.EveryWordIsOneRowOrReserved := by
  refine ⟨fun w r q hr hq hrw hqw => ?_, fun w => lookupRow_eq_none_iff⟩
  exact Option.some.inj ((lookupRow_of_fits hr hrw).symm.trans (lookupRow_of_fits hq hqw))

end Sys2Proof.Machine
end

section
/-! PROOFS. The stops of a first or second word that is no instruction's, and of the extended set switched off. -/

namespace Sys2Proof.Machine

variable {s t : State} {r : Row} {w v : Word} {xinst : Bool} {i : Instr}

/-! ### Reserved words and the extended set -/

theorem decodeFirst_reserved (h : reservedWord w = true) : decodeFirst xinst w = .error (.reserved w) := by
  simp only [decodeFirst, lookupRow_eq_none_iff.mpr h]

/-- A base row's range does not meet the first words of the extended set. -/
theorem opcodeRows_extended : ∀ r ∈ opcodeRows, r.extended = false →
    (r.last < 0x0014 ∨ 0x0014 < r.first) ∧ (r.last < 0xE800 ∨ 0xEBFF < r.first) := by
  decide

theorem extendedWord_iff : extendedWord w = true ↔ w.toNat = 0x0014 ∨ 0xE800 ≤ w.toNat ∧ w.toNat ≤ 0xEBFF := by
  simp only [extendedWord, Bool.or_eq_true, Bool.and_eq_true, decide_eq_true_eq, BitVec.le_def, ← BitVec.toNat_inj,
    BitVec.ofNat_eq_ofNat, BitVec.toNat_ofNat, Nat.reducePow, Nat.reduceMod]

/-- A first word of the extended set selects an extended row: it is not reserved, and no base row fits it. -/
theorem lookupRow_of_extendedWord (h : extendedWord w = true) : ∃ r, lookupRow w = some r ∧ r.extended = true := by
  rw [extendedWord_iff] at h
  cases hl : lookupRow w with
  | none =>
    obtain ⟨q, hq, hw⟩ := reservedWord_iff.mp (lookupRow_eq_none_iff.mp hl)
    simp only [reservedRanges, List.mem_cons, List.not_mem_nil, or_false] at hq
    rcases hq with rfl | rfl | rfl | rfl | rfl <;> omega
  | some r =>
    obtain ⟨hr, hw⟩ := lookupRow_eq_some_iff.mp hl
    refine ⟨r, rfl, ?_⟩
    by_contra hx
    have := opcodeRows_extended r hr (Bool.eq_false_of_not_eq_true hx)
    omega

theorem decodeFirst_extendedDisabled (h : extendedWord w = true) :
    decodeFirst false w = .error (.extendedDisabled w) := by
  obtain ⟨r, hr, hx⟩ := lookupRow_of_extendedWord h
  simp [decodeFirst, hr, hx]

/-! ### Two-word instructions -/

/-- The first words of two-word instructions (R112): a range's first and last, and whether it is of the extended set. -/
def twoWordRanges : List (Nat × Nat × Bool) :=
  [(0xC000, 0xCFFF, false), (0xEC00, 0xEDFF, false), (0xEF00, 0xEFFF, false), (0xEE00, 0xEE0F, false),
    (0xEE10, 0xEE1F, false), (0xEE20, 0xEE2F, false), (0xEB00, 0xEB7F, true), (0xEB80, 0xEBFF, true)]

/-- The upper bits of a word as a number. -/
theorem toNat_extract_upper {k n : Nat} (h : 16 = k + n) (w : Word) : (w.extractLsb' k n).toNat = w.toNat / 2 ^ k := by
  rw [BitVec.extractLsb'_toNat, Nat.shiftRight_eq_div_pow, Nat.mod_eq_of_lt]
  exact Nat.div_lt_of_lt_mul (by rw [← Nat.pow_add, ← h]; exact w.isLt)

theorem exists_twoWordRange (h : twoWordFirst xinst w = true) :
    ∃ q ∈ twoWordRanges, q.1 ≤ w.toNat ∧ w.toNat ≤ q.2.1 ∧ (q.2.2 = true → xinst = true) := by
  simp (disch := decide) only [twoWordFirst, lfsrWord, Bool.or_eq_true, Bool.and_eq_true, decide_eq_true_eq,
    BitVec.le_def, ← BitVec.toNat_inj, toNat_extract_upper, BitVec.ofNat_eq_ofNat, BitVec.toNat_ofNat] at h
  obtain h | ⟨rfl, h⟩ := h
  all_goals
    simp only [twoWordRanges, List.mem_cons, List.not_mem_nil, or_false, exists_eq_or_imp, exists_eq_left,
      Bool.false_eq_true, false_implies, forall_const, and_true]
    omega

/-- Each of these ranges is that of a two-word row. -/
theorem twoWordRanges_row : ∀ q ∈ twoWordRanges, ∃ r ∈ opcodeRows,
    r.first = q.1 ∧ r.last = q.2.1 ∧ r.extended = q.2.2 ∧ r.two = true := by
  decide

/-- The second word of every two-word row has 1111 on top, that of an `LFSR` row 1111 0000 (R123). -/
theorem opcodeRows_second : ∀ r ∈ opcodeRows, r.two = true →
    r.pattern2 = 0xF000 ∧
      (r.mask2 = 0xFF00 ∨ r.mask2 = 0xF000 ∧ (r.last < 0xEE00 ∨ 0xEE2F < r.first)) := by
  decide

theorem goodSecondWord_of_fits (hr : lookupRow w = some r) (h2 : r.two = true) (hv : v &&& r.mask2 = r.pattern2) :
    goodSecondWord w v = true := by
  obtain ⟨hr, hw⟩ := lookupRow_eq_some_iff.mp hr
  simp (disch := decide) only [goodSecondWord, lfsrWord, Bool.and_eq_true, Bool.or_eq_true, Bool.not_eq_true',
    Bool.and_eq_false_iff, decide_eq_true_eq, decide_eq_false_iff_not, BitVec.le_def, ← BitVec.toNat_inj,
    toNat_extract_upper, BitVec.ofNat_eq_ofNat, BitVec.toNat_ofNat]
  obtain ⟨hp, hm | ⟨hm, hlfsr⟩⟩ := opcodeRows_second r hr h2
  · have hrange : 0xF000 ≤ v.toNat ∧ v.toNat ≤ 0xF0FF := by
      rw [hp, hm] at hv
      exact (and_upperMask_eq_iff (k := 8) (by decide) (by decide) (by decide)).mp hv
    omega
  · have hrange : 0xF000 ≤ v.toNat ∧ v.toNat ≤ 0xFFFF := by
      rw [hp, hm] at hv
      exact (and_upperMask_eq_iff (k := 12) (by decide) (by decide) (by decide)).mp hv
    omega

theorem decodeFirst_twoWord (h : twoWordFirst xinst w = true) : ∃ r, decodeFirst xinst w = .ok r ∧ r.two = true ∧
    ∀ v, goodSecondWord w v = false → decodeSecond r w v = .error .badSecondWord := by
  obtain ⟨q, hq, h1, h2, hx⟩ := exists_twoWordRange h
  obtain ⟨r, hr, hf, hl, he, htwo⟩ := twoWordRanges_row q hq
  have hrow : lookupRow w = some r := lookupRow_eq_some_iff.mpr ⟨hr, hf ▸ h1, hl ▸ h2⟩
  refine ⟨r, decodeFirst_of_enabled hrow (he ▸ hx), htwo, fun v hv => ?_⟩
  have hne : ¬ v &&& r.mask2 = r.pattern2 := fun hfit => by
    rw [goodSecondWord_of_fits hrow htwo hfit] at hv
    cases hv
  simp [decodeSecond, htwo, hne]

/-! ### The step that meets such a word -/

theorem fetch_second_error {e : DecodeError} (h : progWord s s.pc = .ok w) (hd : decodeFirst s.cfg.xinst w = .ok r)
    (h2 : r.two = true) (h' : progWord s (s.pc + 2) = .ok v) (he : decodeSecond r w v = .error e) :
    fetch s = .error (faultOfDecode e) := by
  simp only [fetch, h, hd, h2, if_true, h', he]

theorem step_of_fetch_error {e : Fault} (ht : turn s = .instruction t) (hf : fetch t = .error e) :
    step s = .fault e := by
  rw [step, ht]
  simp only [runInstruction, hf, andThen_error]

/-- Settles O9: the decoder refuses the first word, or the second for the row of the first. -/
theorem reservedAndBadWordsStop : Obligations.ReservedAndBadWordsStop := by
  intro s t w0 ht h0
  refine ⟨fun hres => ?_, fun w1 h1 htwo hbad => ?_⟩
  · exact step_of_fetch_error ht (fetch_first_error h0 (decodeFirst_reserved hres))
  · obtain ⟨r, hd, h2, hsecond⟩ := decodeFirst_twoWord htwo
    exact step_of_fetch_error ht (fetch_second_error h0 hd h2 h1 (hsecond w1 hbad))

/-! ### The extended instructions executed -/

theorem requireXinst_off (h : s.cfg.xinst = false) (i : Instr) (k : Result) :
    requireXinst s i k = .fault (.extendedDisabled (firstWord i)) := by
  simp only [requireXinst, h, Bool.false_eq_true, if_false]

theorem fsrNum_of_ne_three {n : BitVec 2} (h : (n != 3) = true) : ∃ m, fsrNum n = some m := by
  rcases fsr_cases h with rfl | rfl | rfl <;> exact ⟨_, rfl⟩

theorem exec_extendedDisabled (hx : i.isExtended = true) (hwf : i.wellFormed = true) (h : s.cfg.xinst = false) :
    exec i s = .fault (.extendedDisabled (firstWord i)) := by
  cases i <;> cases hx
  case addfsr f k =>
    obtain ⟨m, hm⟩ := fsrNum_of_ne_three hwf
    simp only [exec, execAddfsr, hm, requireXinst_off h]
  case subfsr f k =>
    obtain ⟨m, hm⟩ := fsrNum_of_ne_three hwf
    simp only [exec, execSubfsr, hm, requireXinst_off h]
  all_goals exact requireXinst_off h _ _

/-- Settles O10: the decoder refuses the word, and each of the eight instructions asks for `XINST` first. -/
theorem extendedSetNeedsXinst : Obligations.ExtendedSetNeedsXinst := by
  refine ⟨fun s t w0 ht hoff h0 hext => ?_, fun i s hx hwf hoff => exec_extendedDisabled hx hwf hoff⟩
  have hd : decodeFirst t.cfg.xinst w0 = .error (.extendedDisabled w0) := hoff ▸ decodeFirst_extendedDisabled hext
  exact step_of_fetch_error ht (fetch_first_error h0 hd)

end Sys2Proof.Machine
end

section
/-! PROOFS. The byte-oriented instructions: each is a use of the rule of its shape. -/

namespace Sys2Proof.Machine

variable {s u : State} {f : Byte} {d : Dest} {a : Access} {l : Loc} {v : Byte}

/-! ### The operand read leaves WREG, the flags and pc -/

theorem wreg_of_read (h : readOperand (s.advance 2) f a = .ok ⟨l, v, u⟩) : u.wreg = s.wreg :=
  (readOperand_moves h).wreg

theorem flags_of_read (h : readOperand (s.advance 2) f a = .ok ⟨l, v, u⟩) : u.flags = s.flags :=
  (readOperand_moves h).flags

theorem pc_of_read (h : readOperand (s.advance 2) f a = .ok ⟨l, v, u⟩) : u.pc = evenAddr (s.pc + 2) :=
  (readOperand_moves h).pc

/-! ### Where a shape puts its result (R140) -/

/-- A write to a location that takes the byte goes through. -/
theorem finish_locWrite {r : Byte} (hw : locWritable u r l = true) :
    ∃ t, locWrite u l r = .ok t ∧ finish (locWrite u l r) = .next t := by
  obtain ⟨t, ht⟩ := (locWrite_isOk u l r).mpr hw
  exact ⟨t, ht, by rw [ht, finish_ok]⟩

/-- To any location but STATUS a flag-writing instruction writes its result after its flags. -/
theorem finish_storeWithFlags {r : AluResult} (hl : l ≠ .reg .status) (hw : locWritable u r.value l = true) :
    ∃ t, locWrite { u with flags := r.flags } l r.value = .ok t ∧ finish (storeWithFlags u l r) = .next t := by
  rw [storeWithFlags, if_neg hl]
  exact finish_locWrite ((locWritable_flags u r.flags r.value l).trans hw)

theorem putsWithFlags_finish (d : Dest) (l : Loc) (u : State) (r : AluResult) :
    PutsWithFlags d l u r (finish (destWithFlags u d l r)) := by
  constructor
  · rintro rfl
    rfl
  · rintro rfl hl hw
    exact finish_storeWithFlags hl hw

theorem putsByte_finish (d : Dest) (l : Loc) (u : State) (r : Byte) :
    PutsByte d l u r (finish (destPlain u d l r)) := by
  constructor
  · rintro rfl
    rfl
  · rintro rfl hw
    exact finish_locWrite hw

/-- An instruction of the shape `flagOp` puts the result of its operation on the byte, WREG and the flags before it. -/
theorem flagOp_puts {op : Byte → Byte → Flags → AluResult} {r : AluResult}
    (h : readOperand (s.advance 2) f a = .ok ⟨l, v, u⟩) (hr : op v s.wreg s.flags = r) :
    PutsWithFlags d l u r (flagOp s f d a op) := by
  rw [flagOp_of_read h, wreg_of_read h, flags_of_read h, hr]
  exact putsWithFlags_finish d l u r

theorem plainOp_puts {op : Byte → Byte} {r : Byte} (h : readOperand (s.advance 2) f a = .ok ⟨l, v, u⟩)
    (hr : op v = r) : PutsByte d l u r (plainOp s f d a op) := by
  rw [plainOp_of_read h, hr]
  exact putsByte_finish d l u r

/-- Settles O17: eight instructions of the shape `flagOp`, the operands in the spec's order. -/
theorem addSubtractByteInstructions : Obligations.AddSubtractByteInstructions := by
  intro s f d a l v u h
  refine ⟨?_, ?_, ?_, ?_, ?_, ?_, ?_, ?_⟩ <;> rw [exec] <;> exact flagOp_puts h rfl

/-! ### Results with Z and N -/

theorem znFlags_eq (r : Byte) (fl : Flags) :
    znFlags r fl =
      ⟨r, { n := decide (128 ≤ r.toNat), ov := fl.ov, z := decide (r = 0), dc := fl.dc, c := fl.c }⟩ := by
  rw [← znFlags_flags]
  rfl

theorem rotateFlags_eq (r : Byte) (out : Bool) (fl : Flags) :
    rotateFlags r out fl =
      ⟨r, { n := decide (128 ≤ r.toNat), ov := fl.ov, z := decide (r = 0), dc := fl.dc, c := out }⟩ := by
  rw [← rotateFlags_flags]
  rfl

/-- Settles O18: five instructions of the shape `flagOp` with Z and N from the result. -/
theorem logicAndMoveByteInstructions : Obligations.LogicAndMoveByteInstructions := by
  intro s f d a l v u h zn
  refine ⟨?_, ?_, ?_, ?_, ?_⟩ <;> rw [exec] <;> exact flagOp_puts h (znFlags_eq ..)

/-! ### Rotations and the nibble swap as numbers -/

theorem rotateLeftCarry_eq (v : Byte) (c : Bool) :
    (v.extractLsb' 0 7 ++ BitVec.ofBool c : Byte) = BitVec.ofNat 8 (v.toNat * 2 + c.toNat) := by
  rw [rotateLeft_eq, BitVec.toNat_ofBool]

theorem rotateLeftNoCarry_eq (v : Byte) :
    (v.extractLsb' 0 7 ++ v.extractLsb' 7 1 : Byte) = BitVec.ofNat 8 (v.toNat * 2 + v.toNat / 128) := by
  have hv := v.isLt
  have htop : (v.extractLsb' 7 1).toNat = v.toNat / 128 := by
    rw [toNat_extract]
    omega
  rw [rotateLeft_eq, htop]

theorem rotateRightCarry_eq (v : Byte) (c : Bool) :
    (BitVec.ofBool c ++ v.extractLsb' 1 7 : Byte) = BitVec.ofNat 8 (v.toNat / 2 + 128 * c.toNat) := by
  rw [rotateRight_eq, BitVec.toNat_ofBool]

theorem rotateRightNoCarry_eq (v : Byte) :
    (v.extractLsb' 0 1 ++ v.extractLsb' 1 7 : Byte) = BitVec.ofNat 8 (v.toNat / 2 + 128 * (v.toNat % 2)) := by
  have hlow : (v.extractLsb' 0 1).toNat = v.toNat % 2 := by rw [toNat_extract, pow_zero, Nat.div_one, pow_one]
  rw [rotateRight_eq, hlow]

theorem swapNibbles_eq (v : Byte) :
    (v.extractLsb' 0 4 ++ v.extractLsb' 4 4 : Byte) = BitVec.ofNat 8 (v.toNat % 16 * 16 + v.toNat / 16) := by
  have hv := v.isLt
  have hlt : v.toNat % 16 * 16 + v.toNat / 16 < 2 ^ 8 := by omega
  apply BitVec.eq_of_toNat_eq
  rw [toNat_append_eq, toNat_extract, toNat_extract, BitVec.toNat_ofNat, Nat.mod_eq_of_lt hlt]
  omega

theorem lowBit_eq (v : Byte) : v.getLsbD 0 = decide (v.toNat % 2 = 1) := by
  rw [getLsbD_eq_div, pow_zero, Nat.div_one]

/-- Settles O19: the rotated or swapped byte of each shape, as a number. -/
theorem rotateAndSwapByteInstructions : Obligations.RotateAndSwapByteInstructions := by
  intro s f d a l v u h zn
  have hout : v.getLsbD 7 = decide (128 ≤ v.toNat) := signBit_eq v
  refine ⟨?_, ?_, ?_, ?_, ?_⟩ <;> rw [exec]
  · refine flagOp_puts h ?_
    rw [rotateLeftCarry_eq, hout]
    exact rotateFlags_eq ..
  · refine flagOp_puts h ?_
    rw [rotateLeftNoCarry_eq]
    exact znFlags_eq ..
  · refine flagOp_puts h ?_
    rw [rotateRightCarry_eq, lowBit_eq]
    exact rotateFlags_eq ..
  · refine flagOp_puts h ?_
    rw [rotateRightNoCarry_eq]
    exact znFlags_eq ..
  · exact plainOp_puts h (swapNibbles_eq v)

/-! ### Stores without a read -/

/-- `SETF` would set bits 5:3 of INTCON (10_state.md R46). -/
theorem locWrite_intcon_ones (s : State) : locWrite s (.reg .intcon) 0xFF = .error .outOfScopeSfr := by
  rw [locWrite, sfrWrite, if_neg (by decide)]

/-- Settles O20: three instructions of the shape `writeOnly`, their locations written. -/
theorem clearSetAndStoreInstructions : Obligations.ClearSetAndStoreInstructions := by
  intro s f a l u h
  have hm := resolve_moves (resolveOperand_ok h).1
  have hw : u.wreg = s.wreg := hm.wreg
  have hfl : u.flags = s.flags := hm.flags
  refine ⟨fun hl hok => ?_, fun hok => ?_, fun hok => ?_, ?_⟩
  · rw [exec, execClrf, writeOnly_of_resolve h, hfl]
    exact finish_storeWithFlags (r := ⟨0x00, _⟩) hl hok
  · rw [exec, execMovwf, writeOnly_of_resolve h, hw]
    exact finish_locWrite hok
  · rw [exec, execSetf, writeOnly_of_resolve h]
    exact finish_locWrite hok
  · rintro rfl
    rw [exec, execSetf, writeOnly_of_resolve h, locWrite_intcon_ones, finish_error]

/-! ### Skips -/

/-- An instruction of the shape `testSkip` skips on the byte and WREG, from an even pc. -/
theorem testSkip_skipTo {skips : Byte → Byte → Bool} {b : Bool} (hp : s.pc.getLsbD 0 = false)
    (h : readOperand (s.advance 2) f a = .ok ⟨l, v, u⟩) (hb : skips v s.wreg = b) :
    testSkip s f a skips = .next (skipTo u s.pc b) := by
  rw [testSkip_of_read h, wreg_of_read h, hb, skipIf_of_even hp (pc_of_read h)]

/-- Settles O21: six instructions of the shape `testSkip`. -/
theorem compareAndTestSkips : Obligations.CompareAndTestSkips := by
  refine ⟨fun f b a => ⟨rfl, rfl, rfl, rfl, rfl, rfl⟩, fun s f a l v u hp h => ?_⟩
  refine ⟨?_, ?_, ?_, ?_, fun b => ⟨?_, ?_⟩⟩ <;> rw [exec]
  case refine_5 => exact testSkip_skipTo hp h Bool.decide_eq_false.symm
  case refine_6 => exact testSkip_skipTo hp h Bool.decide_eq_true.symm
  all_goals exact testSkip_skipTo hp h rfl

/-- An instruction of the shape `countSkip` puts its count and skips on it, from an even pc, PCL not being where the
count goes. -/
theorem countSkip_puts {op : Byte → Byte} {skips : Byte → Bool} (hp : s.pc.getLsbD 0 = false)
    (h : readOperand (s.advance 2) f a = .ok ⟨l, v, u⟩) :
    PutsByteThenSkips d l u (op v) s.pc (skips (op v)) (countSkip s f d a op skips) := by
  rw [countSkip_of_read h]
  have hpc := pc_of_read h
  constructor
  · rintro rfl
    have hskip := skipIf_of_even (u := { u with wreg := op v }) hp hpc (skips (op v))
    rw [if_neg (by simp), destPlain, andThen_ok, hskip]
  · rintro rfl hl hw
    obtain ⟨t, ht⟩ := (locWrite_isOk u l (op v)).mpr hw
    have hskip := skipIf_of_even hp (((locWrite_frame ht).pc hl).trans hpc) (skips (op v))
    refine ⟨t, ht, ?_⟩
    rw [if_neg fun hn => hl hn.2, destPlain, ht, andThen_ok, hskip]

theorem countSkip_pcl (op : Byte → Byte) (skips : Byte → Bool)
    (h : readOperand (s.advance 2) f a = .ok ⟨.reg .pcl, v, u⟩) :
    countSkip s f .f a op skips = .fault .pclSkipDestination := by
  rw [countSkip_of_read h, if_pos ⟨rfl, rfl⟩]

/-- Settles O22: four instructions of the shape `countSkip`. -/
theorem countAndSkipInstructions : Obligations.CountAndSkipInstructions := by
  intro s f d a l v u hp h
  refine ⟨?_, ?_, ?_, ?_, ?_⟩
  case refine_5 =>
    rintro rfl rfl
    refine ⟨?_, ?_, ?_, ?_⟩ <;> rw [exec] <;> exact countSkip_pcl _ _ h
  all_goals
    rw [exec]
    exact countSkip_puts hp h

/-! ### Multiplication -/

/-- The two halves of a product of bytes are the exact product: it has 16 bits. -/
theorem productBytes_eq (x y : Byte) :
    let p : BitVec 16 := BitVec.ofNat 16 (x.toNat * y.toNat)
    (p.extractLsb' 8 8).toNat * 256 + (p.extractLsb' 0 8).toNat = x.toNat * y.toNat := by
  have hlt : x.toNat * y.toNat < 256 * 256 := Nat.mul_lt_mul'' x.isLt y.isLt
  intro p
  rw [toNat_extract, toNat_extract, BitVec.toNat_ofNat]
  omega

/-- Settles O23: the bytes of the product computed as a 16-bit number. -/
theorem multiplyInstructions : Obligations.MultiplyInstructions := by
  refine ⟨fun f k a => ⟨rfl, rfl⟩, fun s f a l v u h => ?_, fun s k => ?_⟩
  · refine ⟨_, _, productBytes_eq s.wreg v, ?_⟩
    rw [← wreg_of_read h, exec, execMulwf, h, andThen_ok]
  · exact ⟨_, _, productBytes_eq s.wreg k, rfl⟩

/-! ### Moves between file registers -/

theorem moveWrite_of_allowed {r : Byte} (hl : moveForbidden l = false) : moveWrite u l r = locWrite u l r :=
  if_neg (by rw [hl]; exact Bool.false_ne_true)

theorem moveWrite_of_forbidden {r : Byte} (hl : moveForbidden l = true) :
    moveWrite u l r = .error .pclOrTosDestination :=
  if_pos hl

/-- `MOVFF` whose source reads and whose destination then resolves ends with the move's write (R86). -/
theorem movff_of_read {fs fd : DataAddr} {x z : Resolved} (hx : resolve (s.advance 4) fs = .ok x)
    (hv : locRead .two x.st x.loc = .ok (v, u)) (hz : resolve u fd = .ok z) :
    exec (.movff fs fd) s = finish (moveWrite z.st z.loc v) := by
  simp only [exec, execMovff, hx, hv, hz, andThen_ok]

/-- Settles O25: the move's write goes through, or stops at PCL and the top of the stack. -/
theorem moveFileToFile : Obligations.MoveFileToFile := by
  intro s fs fd x v u z hx hv hz
  rw [movff_of_read hx hv hz]
  refine ⟨fun hl hw => ?_, fun hl => ?_⟩
  · rw [moveWrite_of_allowed hl]
    exact finish_locWrite hw
  · rw [moveWrite_of_forbidden (decide_eq_true hl), finish_error]

end Sys2Proof.Machine
end

section
/-! PROOFS. The bit-oriented instructions that write: one mask, three uses of the rule of the shape `plainOp`. -/

namespace Sys2Proof.Machine

/-- The mask has bit `b` alone. -/
theorem getLsbD_bitMask (b : BitVec 3) (k : Nat) : (bitMask b).getLsbD k = decide (k = b.toNat) := by
  have hb : b.toNat < 8 := b.isLt
  rw [bitMask, ← BitVec.twoPow_eq, BitVec.getLsbD_twoPow, decide_eq_true hb, Bool.true_and]
  exact decide_eq_decide.mpr eq_comm

theorem getLsbD_clearBit (v : Byte) (b : BitVec 3) {k : Nat} (hk : k < 8) :
    (v &&& ~~~bitMask b).getLsbD k = if k = b.toNat then false else v.getLsbD k := by
  rw [BitVec.getLsbD_and, BitVec.getLsbD_not, getLsbD_bitMask, decide_eq_true hk]
  split <;> simp [*]

theorem getLsbD_setBit (v : Byte) (b : BitVec 3) (k : Nat) :
    (v ||| bitMask b).getLsbD k = if k = b.toNat then true else v.getLsbD k := by
  rw [BitVec.getLsbD_or, getLsbD_bitMask]
  split <;> simp [*]

theorem getLsbD_toggleBit (v : Byte) (b : BitVec 3) (k : Nat) :
    (v ^^^ bitMask b).getLsbD k = if k = b.toNat then !v.getLsbD k else v.getLsbD k := by
  rw [BitVec.getLsbD_xor, getLsbD_bitMask]
  split <;> simp [*]

/-- Settles O24: three instructions of the shape `plainOp`, each combining the byte with the mask of bit `b`. -/
theorem bitWriteInstructions : Obligations.BitWriteInstructions := by
  refine ⟨fun f b a => ⟨rfl, rfl, rfl⟩, fun s f b a l v u h => ?_⟩
  refine ⟨v &&& ~~~bitMask b, v ||| bitMask b, v ^^^ bitMask b, fun k hk => ?_, ?_, ?_, ?_⟩
  case refine_1 => exact ⟨getLsbD_clearBit v b hk, getLsbD_setBit v b k, getLsbD_toggleBit v b k⟩
  all_goals
    rw [exec]
    exact plainOp_puts h rfl

end Sys2Proof.Machine
end

section
/-! PROOFS. The control instructions that touch no return stack: branches, `GOTO`, the two forms of `NOP`, the watchdog,
`SLEEP`, `RESET` and `DAW`. -/

namespace Sys2Proof.Machine

/-! ### Branches and GOTO -/

/-- pc takes an even address as it is (R34). -/
theorem State.setPc_of_even {a : ProgAddr} (h : a.getLsbD 0 = false) (s : State) : s.setPc a = { s with pc := a } := by
  rw [State.setPc, evenAddr_of_even h]

/-- A conditional branch from an even pc goes to an even address, which pc takes as it is (R190). -/
theorem branchIf_of_even {s : State} (h : s.pc.getLsbD 0 = false) (b : Bool) (n : BitVec 8) :
    branchIf s b n = .next { s with pc := if b then s.pc + 2 + 2 * n.signExtend 21 else s.pc + 2 } := by
  cases b
  · exact congrArg _ (State.setPc_of_even (even_add h even_two) s)
  · exact congrArg _ (State.setPc_of_even (relTarget_even h n) s)

/-- Settles O28: eight conditional branches, each on its flag, and `BRA`. -/
theorem relativeBranches : Obligations.RelativeBranches := by
  refine ⟨fun n m => ⟨rfl, rfl, rfl, rfl, rfl, rfl, rfl, rfl, rfl⟩, fun s n m hpc => ?_⟩
  have hb : ∀ b, branchIf s b n = _ := fun b => branchIf_of_even hpc b n
  refine ⟨hb _, hb _, hb _, hb _, hb _, hb _, hb _, hb _, ?_⟩
  exact congrArg _ (State.setPc_of_even (relTarget_even hpc m) s)

/-! ### NOP, CLRWDT, SLEEP and RESET -/

/-- Settles O34: the target of `GOTO` is even; the other effects are as the instructions define them. -/
theorem nopGotoWatchdogAndSleep : Obligations.NopGotoWatchdogAndSleep := by
  refine ⟨⟨rfl, rfl, rfl, fun x => rfl, fun k => rfl⟩, fun s => ⟨rfl, fun x => rfl, fun k => ?_, rfl, rfl⟩⟩
  exact congrArg _ (State.setPc_of_even (absTarget_even k) s)

/-- Settles O35: the three resets are `clearedByReset` but for the bits of RCON, and an empty stack has 0 on top. -/
theorem resetInstructionAndItsColumn : Obligations.ResetInstructionAndItsColumn :=
  ⟨rfl, fun _ => ⟨rfl, rfl, rfl, fun _ => rfl⟩⟩

/-! ### DAW -/

/-- The algorithm of `DAW` (R202), the two tests as propositions. -/
theorem decimalAdjust_eq (w : Byte) (dc c : Bool) :
    decimalAdjust w dc c =
      let t := if 9 < w.toNat % 16 ∨ dc = true then w.toNat + 0x06 else w.toNat
      if 9 < t / 16 ∨ c = true then t + 0x60 else t := by
  simp only [decimalAdjust, Bool.or_eq_true, decide_eq_true_eq]

/-- Settles O15: the low eight bits of the adjusted value, and a C that is only ever set. -/
theorem dawResult : Obligations.DawResult := by
  refine ⟨rfl, fun s => ?_⟩
  intro t1 t2
  have ht : decimalAdjust s.wreg s.flags.dc s.flags.c = t2 := decimalAdjust_eq ..
  have hw : BitVec.ofNat 8 (t2 % 256) = BitVec.ofNat 8 t2 := BitVec.eq_of_toNat_eq (by simp)
  have hc : (if 255 < t2 then true else s.flags.c) = (s.flags.c || decide (255 < t2)) := by
    split <;> simp [*]
  rw [hw, hc, ← ht]
  rfl

/-- The second test of `DAW`, the low digit `d` correct: `t` is the high part `q` and `d` in packed form, less the 256
that the addition carried out. The high part is corrected exactly if it is no digit. -/
theorem adjust_high_digit {t q d : Nat} {c : Bool} (hd : d < 10) (hq : q < 20)
    (ht : t + (if c = true then 256 else 0) = 16 * q + d) :
    (if 9 < t / 16 ∨ c = true then t + 0x60 else t) % 256 = q % 10 * 16 + d ∧
      (255 < (if 9 < t / 16 ∨ c = true then t + 0x60 else t) ∨ c = true ↔ 10 ≤ q) := by
  cases c with
  | true =>
    simp only [or_true, if_true, true_iff] at ht ⊢
    omega
  | false =>
    simp only [Bool.false_eq_true, or_false, if_false, Nat.add_zero] at ht ⊢
    split <;> omega

/-- `DAW` after an addition of packed-BCD bytes, `lo` the sum of the low digits and the carry, `hi` the sum of the high
ones: the first test corrects `lo` exactly if it is no digit. -/
theorem decimalAdjust_of_digits {w : Byte} {dc c : Bool} {lo hi : Nat} (hlo : lo < 20) (hhi : hi < 19)
    (hw : w.toNat = (16 * hi + lo) % 256) (hdc : dc = true ↔ 15 < lo) (hc : c = true ↔ 255 < 16 * hi + lo) :
    decimalAdjust w dc c % 256 = (10 * hi + lo) % 100 / 10 * 16 + (10 * hi + lo) % 10 ∧
      (255 < decimalAdjust w dc c ∨ c = true ↔ 100 ≤ 10 * hi + lo) := by
  have hlow : (9 < w.toNat % 16 ∨ dc = true) ↔ 9 < lo := by
    rw [hdc, hw]
    omega
  have hcarry : w.toNat + (if c = true then 256 else 0) = 16 * hi + lo := by
    simp only [hc, hw]
    split <;> omega
  rw [decimalAdjust_eq]
  dsimp only
  by_cases h : 9 < lo
  · rw [if_pos (hlow.mpr h)]
    obtain ⟨hdigits, hover⟩ :=
      adjust_high_digit (t := w.toNat + 6) (q := hi + 1) (d := lo - 10) (c := c) (by omega) (by omega) (by omega)
    rw [hdigits, hover]
    omega
  · rw [if_neg (mt hlow.mp h)]
    obtain ⟨hdigits, hover⟩ := adjust_high_digit (q := hi) (d := lo) (by omega) (by omega) hcarry
    rw [hdigits, hover]
    omega

/-- Two decimal digits as a packed-BCD byte. -/
theorem toNat_packed {x : Nat} (h : x < 100) :
    (BitVec.ofNat 8 (x / 10 * 16 + x % 10)).toNat = x / 10 * 16 + x % 10 :=
  Nat.mod_eq_of_lt (by omega)

/-- Settles O16: `DawResult` on the sums of the digits. -/
theorem dawAfterAdditionIsDecimal : Obligations.DawAfterAdditionIsDecimal := by
  intro s x y cin hx hy hw hf
  have hcin := Bool.toNat_le cin
  obtain ⟨hval, hc, hdc, -⟩ := additionFlagsAreExact (BitVec.ofNat 8 (x / 10 * 16 + x % 10))
    (BitVec.ofNat 8 (y / 10 * 16 + y % 10)) cin
  rw [toNat_packed hx, toNat_packed hy] at hval hc hdc
  rw [← hw] at hval
  rw [← hf] at hc hdc
  obtain ⟨hdigits, hcarry⟩ := decimalAdjust_of_digits (w := s.wreg) (dc := s.flags.dc) (c := s.flags.c)
    (lo := x % 10 + y % 10 + cin.toNat) (hi := x / 10 + y / 10) (by omega) (by omega)
    (hval.trans (by omega)) (hdc.trans (by omega)) (hc.trans (by omega))
  have hsum : 10 * (x / 10 + y / 10) + (x % 10 + y % 10 + cin.toNat) = x + y + cin.toNat := by omega
  rw [hsum] at hdigits hcarry
  refine ⟨_, rfl, (BitVec.toNat_ofNat ..).trans hdigits, ?_⟩
  rw [← hcarry, Or.comm]
  exact (Bool.or_eq_true ..).to_iff.trans (or_congr_right decide_eq_true_iff)

end Sys2Proof.Machine
end

section
/-! PROOFS. The instructions that push and pop, with room on the return stack and with an entry on it. -/

namespace Sys2Proof.Machine

variable {s : State}

/-! ### Pushes -/

/-- Settles O29: with room, what follows each push runs on the pushed state, and each target is even. -/
theorem callsPushReturnAddress : Obligations.CallsPushReturnAddress := by
  intro s hpc hroom pushed
  have hpush : ∀ n v k, pushThen (s.advance n) v k = k ((s.advance n).pushed v) :=
    fun n v k => pushThen_room (s := s.advance n) hroom v k
  have hnext : (s.pc + 2).getLsbD 0 = false := even_add hpc even_two
  refine ⟨fun k => ?_, fun k => ?_, fun n => ?_, ?_, fun hx => ?_⟩
  · rw [exec, execCall, hpush, State.setPc_of_even (absTarget_even k), State.pushed_eq]
    rfl
  · rw [exec, execCall, hpush, State.setPc_of_even (absTarget_even k), State.pushed_eq]
    rfl
  · rw [exec, execRcall, hpush, State.setPc_of_even (relTarget_even hpc n), State.pushed_eq]
    rfl
  · rw [exec, execPush, hpush, State.pushed_eq, State.advance, State.setPc_of_even hnext]
  · rw [exec, execCallw, requireXinst_on hx, hpush, State.pushed_eq]
    rfl

/-! ### Pops -/

theorem tos_of_entry {v : ProgAddr} (h0 : s.sp ≠ 0) (hv : s.stack[s.sp.toNat - 1]? = some v) : s.tos = v := by
  rw [State.tos, if_neg h0, hv]
  rfl

/-- The bit a return from interrupt sets (R210, log entry 20). -/
theorem State.reenable_eq (s : State) :
    s.reenable =
      if s.rcon.ipen = false then { s with gieh := true }
      else if s.gieh = false then { s with gieh := true } else { s with giel := true } := by
  rw [State.reenable]
  cases s.rcon.ipen <;> cases s.gieh <;> rfl

theorem State.reenable_setPc (s : State) (a : ProgAddr) : s.reenable.setPc a = (s.setPc a).reenable := by
  rw [State.reenable, State.reenable, State.setPc_rcon, State.setPc_gieh]
  split <;> rfl

/-- `RETURN` with an entry on the stack. -/
theorem ret_held (h : s.sp ≠ 0) (fast : Bool) :
    exec (.ret fast) s = .next ((({ s with sp := s.sp - 1 } : State).restoreShadowIf fast).setPc s.tos) := by
  rw [exec, execReturn, popThen_held h]

/-- `RETFIE` with an entry on the stack is `RETURN` and then sets an enable bit (R210). -/
theorem retfie_held (h : s.sp ≠ 0) (fast : Bool) :
    exec (.retfie fast) s =
      .next ((({ s with sp := s.sp - 1 } : State).restoreShadowIf fast).setPc s.tos).reenable := by
  rw [exec, execRetfie, returnFromInterrupt, popThen_held h, State.reenable_setPc]

/-- Settles O30: what follows each pop runs on the top entry. -/
theorem returnsPopReturnAddress : Obligations.ReturnsPopReturnAddress := by
  intro s v h0 hv back restored enabled
  obtain rfl := tos_of_entry h0 hv
  refine ⟨?_, ret_held h0 false, ret_held h0 true, ?_, ?_, fun k => ?_, fun hx k => ⟨?_, ?_⟩⟩
  · rw [exec, execPop, popThen_held (s := s.advance 2) h0]
    rfl
  · rw [retfie_held h0, State.reenable_eq]
    rfl
  · rw [retfie_held h0, State.reenable_eq]
    rfl
  · rw [exec, execRetlw, popThen_held (s := { s with wreg := k }) h0]
    rfl
  · rw [exec, execAddulnk, requireXinst_on hx, popThen_held (s := { s with fsr2 := s.fsr2 + k.setWidth 12 }) h0]
    rfl
  · rw [exec, execSubulnk, requireXinst_on hx, popThen_held (s := { s with fsr2 := s.fsr2 - k.setWidth 12 }) h0]
    rfl

end Sys2Proof.Machine
end

section
/-! PROOFS. A second word executed or passed over. -/

namespace Sys2Proof.Machine

variable {s t : State} {w : Word} {r : Row} {i : Instr} {xinst : Bool}

/-! ### A second word executed first -/

/-- An instruction of one word at pc, one that the configuration enables, is the one fetched. -/
theorem fetch_of_encode (hwf : i.wellFormed = true) (hx : i.isExtended = true → s.cfg.xinst = true)
    (he : encode i = [w]) (h : progWord s s.pc = .ok w) : fetch s = .ok i := by
  obtain ⟨r, hr⟩ := exists_rowOf hwf
  have hw : firstWord i = w := by rw [firstWord, he]; rfl
  have hd := hr.decodeFirst_eq hx
  rw [hw] at hd
  obtain ⟨-, h2, hb⟩ | ⟨v, hv, -⟩ := hr.words
  · rw [fetch_one h hd h2, ← hw, hb]
  · simp [he] at hv

/-- A word with 1111 on top is that of the second-word form of `NOP`. -/
theorem eq_wordSecond (h : w.extractLsb' 12 4 = 0b1111#4) : w = wordSecond w.low12 := by
  rw [wordSecond, ← h]
  exact (append_extract (n := 4) (m := 12) w).symm

/-! ### A word passed over -/

/-- The words of every two-word row are one of the ranges of R112. -/
theorem opcodeRows_twoWordRange : ∀ r ∈ opcodeRows, r.two = true → (r.first, r.last, r.extended) ∈ twoWordRanges := by
  decide

/-- A word of a range of R112 that the configuration enables is the first of two (see `exists_twoWordRange`). -/
theorem twoWordFirst_of_range {q : Nat × Nat × Bool} (hq : q ∈ twoWordRanges) (hw : q.1 ≤ w.toNat ∧ w.toNat ≤ q.2.1)
    (hx : q.2.2 = true → xinst = true) : twoWordFirst xinst w = true := by
  simp (disch := decide) only [twoWordFirst, lfsrWord, Bool.or_eq_true, Bool.and_eq_true, decide_eq_true_eq,
    BitVec.le_def, ← BitVec.toNat_inj, toNat_extract_upper, BitVec.ofNat_eq_ofNat, BitVec.toNat_ofNat]
  simp only [twoWordRanges, List.mem_cons, List.not_mem_nil, or_false] at hq
  rcases hq with rfl | rfl | rfl | rfl | rfl | rfl | rfl | rfl <;> dsimp only at hw
  iterate 6 exact .inl (by omega)
  iterate 2 exact .inr ⟨hx rfl, by omega⟩

theorem decodeFirst_ok (h : decodeFirst xinst w = .ok r) :
    lookupRow w = some r ∧ (r.extended = true → xinst = true) := by
  unfold decodeFirst at h
  split at h
  · cases h
  · rename_i q hq
    split at h
    · cases h
    · rename_i hx
      cases h
      exact ⟨hq, by simpa using hx⟩

/-- A first word is the first of two exactly if the row that the decoder selects has two words (R112). -/
theorem two_of_decodeFirst (h : decodeFirst xinst w = .ok r) : r.two = twoWordFirst xinst w := by
  rw [Bool.eq_iff_iff]
  constructor
  · intro h2
    obtain ⟨hrow, hx⟩ := decodeFirst_ok h
    obtain ⟨hr, hw⟩ := lookupRow_eq_some_iff.mp hrow
    exact twoWordFirst_of_range (opcodeRows_twoWordRange r hr h2) hw hx
  · intro h2
    obtain ⟨q, hq, htwo, -⟩ := decodeFirst_twoWord h2
    rw [hq] at h
    cases h
    exact htwo

/-- pc stands inside a skip exactly if the word passed over is the first of two (R286). -/
theorem insideSkip_eq (hs : s.skipped = true) (h : progWord s (s.pc - 2) = .ok w) :
    insideSkip s = twoWordFirst s.cfg.xinst w := by
  simp only [insideSkip, hs, h, Bool.true_and]
  cases hd : decodeFirst s.cfg.xinst w with
  | ok r => exact two_of_decodeFirst hd
  | error e =>
    cases h2 : twoWordFirst s.cfg.xinst w with
    | false => rfl
    | true =>
      obtain ⟨r, hr, -⟩ := decodeFirst_twoWord h2
      cases hd.symm.trans hr

/-- Inside a skip a running core executes an instruction, whatever interrupt is due. -/
theorem runningTurn_of_insideSkip (h : insideSkip s = true) :
    runningTurn s = .instruction { s with skipped := false } := by
  rcases runningTurn_cases s with h' | ⟨p, -, hout, -⟩
  · exact h'
  · cases h.symm.trans hout

theorem runningTurn_of_interruptDue {p : Priority} (hp : interruptDue s = some p) (h : insideSkip s = false) :
    runningTurn s = .interrupt p { s with skipped := false } := by
  simp only [runningTurn, hp, h, Bool.false_eq_true, if_false]

/-- Without a reset a running core has a running core's turn. -/
theorem turn_eq_runningTurn (hr : s.runState = .running) (hd : resetDue s = none) : turn s = runningTurn s.arrive := by
  rw [turn, hd, hr]

/-- Settles O12: the word decodes to the second-word form of `NOP`; inside a skip the interrupt waits. -/
theorem secondWordRunsAsNop : Obligations.SecondWordRunsAsNop := by
  refine ⟨fun s t w ht h0 htop => ?_, fun s w hr hd hskip h0 => ?_⟩
  · have he : encode (.nopSecond w.low12) = [w] := congrArg (fun v => [v]) (eq_wordSecond htop).symm
    have hf : fetch t = .ok (.nopSecond w.low12) :=
      fetch_of_encode rfl (fun h => absurd h Bool.false_ne_true) he h0
    rw [step_of_fetch ht hf, exec, execNopSecond, State.advance, State.setPc, State.tickWdt_pc]
  · have hin : insideSkip s.arrive = twoWordFirst s.cfg.xinst w := insideSkip_eq (s := s.arrive) hskip h0
    rw [turn_eq_runningTurn hr hd]
    refine ⟨fun h2 => ?_, fun h1 p hp => ?_⟩
    · exact runningTurn_of_insideSkip (hin.trans h2)
    · exact runningTurn_of_interruptDue hp (hin.trans h1)

end Sys2Proof.Machine
end

section
/-! PROOFS. An interrupt entry and the return from it. -/

namespace Sys2Proof.Machine

variable {s : State} {p : Priority}

/-- An interrupt is entered only with the enable bits set that its entry and its return clear and set again (R283). -/
theorem interruptDue_enabled (h : interruptDue s = some p) :
    s.gieh = true ∧ (p = .low → s.rcon.ipen = true ∧ s.giel = true) := by
  have hpass : requestPasses s p = true := by
    unfold interruptDue at h
    split at h
    · cases h
      assumption
    · split at h
      · cases h
        assumption
      · cases h
  obtain ⟨src, -, hsrc⟩ := List.any_eq_true.mp hpass
  rw [Bool.and_eq_true, Bool.and_eq_true, decide_eq_true_iff] at hsrc
  obtain ⟨⟨-, hgate⟩, hentry⟩ := hsrc
  rw [gateOpen] at hgate
  rw [entryPriority] at hentry
  cases hi : s.rcon.ipen with
  | true =>
    simp only [hi, if_true, Bool.and_eq_true, Bool.or_eq_true, decide_eq_true_eq] at hgate hentry
    refine ⟨hgate.1, fun hp => ⟨rfl, hgate.2.resolve_left ?_⟩⟩
    rw [hentry, hp]
    nofun
  | false =>
    simp only [hi, Bool.false_eq_true, if_false, Bool.and_eq_true] at hgate hentry
    refine ⟨hgate.1, fun hp => ?_⟩
    cases hentry.trans hp

/-- The state after the push of an interrupt entry as the rest of the entry leaves it (R287). -/
def State.entered (s : State) (p : Priority) : State :=
  match p with
  | .high => { s with shadow := ⟨s.wreg, s.flags, s.bsr⟩, gieh := false, pc := Config.highVector }
  | .low => { s with shadow := ⟨s.wreg, s.flags, s.bsr⟩, giel := false, pc := Config.lowVector }

/-- An interrupt entry that finds room on the return stack. -/
theorem takeInterrupt_room (h : roomToPush s = true) : takeInterrupt p s = .next ((s.pushed s.pc).entered p) := by
  rw [takeInterrupt, pushThen_room h]
  cases p <;> rfl

theorem step_of_interruptDue (hr : s.runState = .running) (hd : resetDue s = none) (hin : insideSkip s.arrive = false)
    (hp : interruptDue s.arrive = some p) : step s = takeInterrupt p { s.arrive with skipped := false } := by
  rw [step, turn_eq_runningTurn hr hd, runningTurn_of_interruptDue hp hin]

@[simp] theorem State.entered_sp (s : State) (p : Priority) : (s.entered p).sp = s.sp := by cases p <;> rfl

@[simp] theorem State.entered_stack (s : State) (p : Priority) : (s.entered p).stack = s.stack := by cases p <;> rfl

@[simp] theorem State.entered_shadow (s : State) (p : Priority) : (s.entered p).shadow = ⟨s.wreg, s.flags, s.bsr⟩ := by
  cases p <;> rfl

/-- The return's enable bit is the one that the entry cleared (R210, R287, R290). -/
theorem State.reenable_entered (hg : s.gieh = true) (hl : p = .low → s.rcon.ipen = true ∧ s.giel = true) :
    (s.entered p).reenable.gieh = s.gieh ∧ (s.entered p).reenable.giel = s.giel := by
  rw [State.reenable_gieh, State.reenable_giel]
  cases p with
  | high => simp [State.entered, hg]
  | low =>
    obtain ⟨hi, hgl⟩ := hl rfl
    simp [State.entered, hg, hi, hgl]

/-- What `RETURN` answers, `RETFIE` answers with an enable bit set (R210), which depends on the bits `RETURN` leaves. -/
theorem retfie_of_ret {fast : Bool} {u : State} (h0 : s.sp ≠ 0) (h : exec (.ret fast) s = .next u) :
    exec (.retfie fast) s = .next u.reenable ∧ u.gieh = s.gieh ∧ u.giel = s.giel ∧ u.rcon = s.rcon := by
  rw [ret_held h0] at h
  cases h
  exact ⟨retfie_held h0 fast, by simp, by simp, by simp⟩

/-- A push that finds room leaves the stack with an entry. -/
theorem sp_succ_ne_zero (h : roomToPush s = true) : s.sp + 1 ≠ 0 := by
  have h31 := sp_lt_of_room h
  intro h0
  have hnat := congrArg BitVec.toNat h0
  simp only [BitVec.toNat_add, BitVec.ofNat_eq_ofNat, BitVec.toNat_ofNat] at hnat
  omega

/-- Settles O57: the pop takes back the entry and the SP of the push, and the bit set is the one that the entry cleared. -/
theorem interruptThenReturnRestores : Obligations.InterruptThenReturnRestores := by
  intro s t p w fl b hr hd hin hp hpc hroom h
  obtain ⟨hgieh, hlow⟩ : s.gieh = true ∧ (p = .low → s.rcon.ipen = true ∧ s.giel = true) :=
    interruptDue_enabled (s := s.arrive) hp
  have ht : t = (State.pushed { s.arrive with skipped := false } s.pc).entered p := by
    rw [step_of_interruptDue hr hd hin hp, takeInterrupt_room (s := { s.arrive with skipped := false }) hroom] at h
    exact (Host.Outcome.next.inj h).symm
  have hsp : t.sp = s.sp + 1 := by rw [ht]; simp
  have hstack : t.stack = s.stack.setIfInBounds s.sp.toNat s.pc := by rw [ht]; simp
  have hshadow : t.shadow = ⟨s.wreg, s.flags, s.bsr⟩ := by rw [ht]; simp
  have henable : t.reenable.gieh = s.gieh ∧ t.reenable.giel = s.giel := by
    have hbits := State.reenable_entered (p := p) (s := State.pushed { s.arrive with skipped := false } s.pc)
    rw [← ht, State.pushed_gieh, State.pushed_giel, State.pushed_rcon] at hbits
    exact hbits hgieh hlow
  obtain ⟨u, hu, hupc, husp, hbelow, huw, huf, hub⟩ :=
    ret_of_pushed (r := { t with wreg := w, flags := fl, bsr := b }) (sp_lt_of_room hroom) hsp hstack true
  obtain ⟨hret, hg, hl, hrcon⟩ := retfie_of_ret (s := { t with wreg := w, flags := fl, bsr := b })
    (hsp.trans_ne (sp_succ_ne_zero hroom)) hu
  refine ⟨u.reenable, hret, ?_⟩
  simp only [State.reenable_pc, State.reenable_wreg, State.reenable_flags, State.reenable_bsr, State.reenable_sp,
    State.reenable_stack, hupc, evenAddr_of_even hpc, huw, huf, hub, hshadow, husp, if_true, true_and]
  rw [State.reenable_gieh, State.reenable_giel] at henable ⊢
  rw [hg, hl, hrcon]
  exact ⟨hbelow, henable⟩

end Sys2Proof.Machine
end

section
/-! PROOFS. The literal instructions: the results they put in WREG and BSR, and the FSRs they load, add to and subtract
from. -/

namespace Sys2Proof.Machine

variable {s : State} {f : BitVec 2} {n : FsrNum}

/-! ### WREG and BSR -/

/-- A literal instruction whose result sets Z and N and keeps the other flags (R232, R233, R240). -/
theorem literalResult_zn (s : State) (r : Byte) :
    literalResult s (znFlags r s.flags) =
      .next { s with
        pc := evenAddr (s.pc + 2), wreg := r,
        flags := { n := decide (128 ≤ r.toNat), ov := s.flags.ov, z := decide (r = 0), dc := s.flags.dc, c := s.flags.c } } := by
  rw [znFlags_eq]
  rfl

/-- Settles O36: three instructions with Z and N from the result; the others are as the instructions define them. -/
theorem literalInstructions : Obligations.LiteralInstructions := by
  refine ⟨fun k b => ⟨rfl, rfl, rfl, rfl, rfl, rfl, rfl⟩, fun s k => ?_⟩
  exact ⟨rfl, rfl, literalResult_zn s _, literalResult_zn s _, literalResult_zn s _, rfl, fun b => rfl⟩

/-! ### FSRs -/

/-- `LFSR` of a field that names an FSR (R234). -/
theorem lfsr_named (h : fsrNum f = some n) (s : State) (k : BitVec 12) :
    exec (.lfsr f k) s = .next ((s.advance 4).setFsr n k) := by
  rw [exec, execLfsr, h]

/-- `LFSR` of the field that names none (R122, R234). -/
theorem lfsr_unnamed (h : fsrNum f = none) (s : State) (k : BitVec 12) :
    exec (.lfsr f k) s = .fault (.reservedEncoding (firstWord (.lfsr f k))) := by
  rw [exec, execLfsr, h]

/-- `ADDFSR` with the extended set switched on (R262). -/
theorem addfsr_named (hx : s.cfg.xinst = true) (h : fsrNum f = some n) (j : BitVec 6) :
    exec (.addfsr f j) s = .next ((s.advance 2).setFsr n (s.fsr n + j.setWidth 12)) := by
  rw [exec, execAddfsr, h]
  exact requireXinst_on hx _ _

/-- `SUBFSR` with the extended set switched on (R268). -/
theorem subfsr_named (hx : s.cfg.xinst = true) (h : fsrNum f = some n) (j : BitVec 6) :
    exec (.subfsr f j) s = .next ((s.advance 2).setFsr n (s.fsr n - j.setWidth 12)) := by
  rw [exec, execSubfsr, h]
  exact requireXinst_on hx _ _

/-- Settles O37: the FSR that each field names is written, and without `XINST` the two extended instructions stop. -/
theorem pointerInstructions : Obligations.PointerInstructions := by
  refine ⟨fun f k j => ⟨rfl, rfl, rfl⟩, fun s k j => ?_⟩
  refine ⟨lfsr_named (n := .f0) rfl s k, lfsr_named (n := .f1) rfl s k, lfsr_named (n := .f2) rfl s k,
    lfsr_unnamed rfl s k, fun hx => ?_, fun hoff f hf => ?_⟩
  · exact ⟨addfsr_named (n := .f0) hx rfl j, addfsr_named (n := .f1) hx rfl j, addfsr_named (n := .f2) hx rfl j,
      subfsr_named (n := .f0) hx rfl j, subfsr_named (n := .f1) hx rfl j, subfsr_named (n := .f2) hx rfl j⟩
  · have hwf : (f != 3) = true := bne_iff_ne.mpr hf
    exact ⟨exec_extendedDisabled (i := .addfsr f j) rfl hwf hoff, exec_extendedDisabled (i := .subfsr f j) rfl hwf hoff⟩

end Sys2Proof.Machine
end

section
/-! PROOFS. The table operations: the access at a table address, and what the operation that makes it answers. -/

namespace Sys2Proof.Machine

variable {s : State} {p : TblAddr}

/-! ### An access at a table address -/

/-- No table read reaches the configuration and ID space (R246). -/
theorem tableRead_outside (h : p.getLsbD 21 = true) : tableRead s p = .error .tableOutsideProgramSpace := by
  rw [tableRead, if_pos h]

/-- No table write reaches the configuration and ID space (R246). -/
theorem tableWrite_outside (h : p.getLsbD 21 = true) : tableWrite s p = .error .tableOutsideProgramSpace := by
  rw [tableWrite, if_pos h]

/-- A table read in program space stops as the read of the byte does (R74, R247). -/
theorem tableRead_unreadable {e : Fault} (h : p.getLsbD 21 = false) (he : progByte s (p.setWidth 21) = .error e) :
    tableRead s p = .error e := by
  rw [tableRead, if_neg (Bool.eq_false_iff.mp h), he]

/-- A table read in program space puts the byte in TABLAT (R247). -/
theorem tableRead_inside {v : Byte} (h : p.getLsbD 21 = false) (hv : progByte s (p.setWidth 21) = .ok v) :
    tableRead s p = .ok { s with tablat := v } := by
  rw [tableRead, if_neg (Bool.eq_false_iff.mp h), hv]

/-- A table write in program space puts TABLAT in a holding latch (R251). -/
theorem tableWrite_inside (h : p.getLsbD 21 = false) :
    tableWrite s p = .ok { s with hold := s.hold.write (p.toNat % s.cfg.holdBytes) s.tablat } := by
  rw [tableWrite, if_neg (Bool.eq_false_iff.mp h)]

/-! ### The operations -/

/-- A table operation whose access stops (R245). -/
theorem tableOp_error {access : State → TblAddr → Except Fault State} {q : TblAddr} {e : Fault}
    (h : access (s.advance 2) p = .error e) : tableOp s access p q = .fault e := by
  rw [tableOp, h, andThen_error]

/-- A table operation whose access completes (R245). -/
theorem tableOp_ok {access : State → TblAddr → Except Fault State} {q : TblAddr} {u : State}
    (h : access (s.advance 2) p = .ok u) : tableOp s access p q = .next { u with tblptr := q } := by
  rw [tableOp, h, andThen_ok]

/-- A table read at `p` that leaves TBLPTR at `q`. Reading program memory does not depend on pc. -/
theorem tableOp_tableRead (s : State) (p q : TblAddr) :
    (p.getLsbD 21 = true → tableOp s tableRead p q = .fault .tableOutsideProgramSpace) ∧
    (∀ e, p.getLsbD 21 = false → progByte s (p.setWidth 21) = .error e → tableOp s tableRead p q = .fault e) ∧
    ∀ v, p.getLsbD 21 = false → progByte s (p.setWidth 21) = .ok v →
      tableOp s tableRead p q = .next { s with pc := evenAddr (s.pc + 2), tablat := v, tblptr := q } := by
  refine ⟨fun h => ?_, fun e h he => ?_, fun v h hv => ?_⟩
  · exact tableOp_error (tableRead_outside h)
  · exact tableOp_error (tableRead_unreadable h he)
  · exact tableOp_ok (tableRead_inside h hv)

/-- A table write at `p` that leaves TBLPTR at `q`: the latches read back as the written memory does. -/
theorem tableOp_tableWrite (s : State) (p q : TblAddr) :
    (p.getLsbD 21 = true → tableOp s tableWrite p q = .fault .tableOutsideProgramSpace) ∧
    (p.getLsbD 21 = false → ∃ t, tableOp s tableWrite p q = .next t ∧
      t.hold.read (p.toNat % s.cfg.holdBytes) = some s.tablat ∧
      (∀ j, j ≠ p.toNat % s.cfg.holdBytes → t.hold.read j = s.hold.read j) ∧
      t = { s with pc := evenAddr (s.pc + 2), hold := t.hold, tblptr := q }) := by
  refine ⟨fun h => tableOp_error (tableWrite_outside h), fun h => ⟨_, tableOp_ok (tableWrite_inside h), ?_, ?_, rfl⟩⟩
  · exact Memory.read_write_same _ _ _
  · exact fun j hj => Memory.read_write_other _ _ hj

/-- Settles O39: the four reads differ only in the address accessed and in the pointer left. -/
theorem tableReads : Obligations.TableReads := by
  refine ⟨⟨rfl, rfl, rfl, rfl⟩, fun s => ⟨?_, ?_, ?_, ?_⟩⟩
  · exact tableOp_tableRead s s.tblptr s.tblptr
  · exact tableOp_tableRead s s.tblptr (s.tblptr + 1)
  · exact tableOp_tableRead s s.tblptr (s.tblptr - 1)
  · exact tableOp_tableRead s (s.tblptr + 1) (s.tblptr + 1)

/-- Settles O40: the four writes differ only in the address accessed and in the pointer left. -/
theorem tableWrites : Obligations.TableWrites := by
  refine ⟨⟨rfl, rfl, rfl, rfl⟩, fun s => ⟨?_, ?_, ?_, ?_⟩⟩
  · exact tableOp_tableWrite s s.tblptr s.tblptr
  · exact tableOp_tableWrite s s.tblptr (s.tblptr + 1)
  · exact tableOp_tableWrite s s.tblptr (s.tblptr - 1)
  · exact tableOp_tableWrite s (s.tblptr + 1) (s.tblptr + 1)

end Sys2Proof.Machine
end

section
/-! PROOFS. The extended instructions that move a byte at an FSR2-based address: the two indexed moves and the push of a
literal. -/

namespace Sys2Proof.Machine

variable {s u : State} {l : Loc} {v : Byte} {zs : BitVec 7}

/-! ### The two parts of an indexed move -/

/-- An FSR2-plus-offset address on a virtual register moves no pointer (R83). -/
theorem resolveIndexed_of_virtual (h : isVirtual (s.fsr2 + zs.setWidth 12) = true) : resolveIndexed s zs = .ok .null :=
  if_pos h

theorem finish_moveWrite_of_allowed (hl : moveForbidden l = false) (hw : locWritable u v l = true) :
    ∃ t, locWrite u l v = .ok t ∧ finish (moveWrite u l v) = .next t := by
  rw [moveWrite_of_allowed hl]
  exact finish_locWrite hw

theorem finish_moveWrite_of_forbidden (hl : moveForbidden l = true) :
    finish (moveWrite u l v) = .fault .pclOrTosDestination := by
  rw [moveWrite_of_forbidden hl, finish_error]

/-- The two indexed moves whose source has been read resolve their destination and end with the move's write. That of
`MOVSS` is where FSR2 points before the read, which moves no FSR. -/
theorem indexedMove_of_read (hx : s.cfg.xinst = true) (hl : resolveIndexed (s.advance 4) zs = .ok l)
    (hv : locRead .two (s.advance 4) l = .ok (v, u)) :
    (∀ (fd : DataAddr) (z : Resolved), resolve u fd = .ok z →
      exec (.movsf zs fd) s = finish (moveWrite z.st z.loc v)) ∧
    ∀ (zd : BitVec 7) (m : Loc), resolveIndexed (s.advance 4) zd = .ok m →
      exec (.movss zs zd) s = finish (moveWrite u m v) := by
  refine ⟨fun fd z hz => ?_, fun zd m hm => ?_⟩
  · simp only [exec, execMovsf, requireXinst_on hx, hl, hv, hz, andThen_ok]
  · have hkept : resolveIndexed u zd = resolveIndexed (s.advance 4) zd :=
      resolveIndexed_congr (locRead_moves hv).cfg (locRead_fsr hv .f2) zd
    simp only [exec, execMovss, requireXinst_on hx, hl, hv, hkept, hm, andThen_ok]

/-- Settles O26: the move's write goes through or stops at its destination's location, which a virtual register's offset
makes the one that ignores writes. -/
theorem moveIndexed : Obligations.MoveIndexed := by
  intro s zs l v u hx hl hv
  obtain ⟨hsf, hss⟩ := indexedMove_of_read hx hl hv
  refine ⟨fun hvirt => ?_, fun fd z hz ha hw => ?_, fun fd z hz hf => ?_, fun zd m hm ha hw => ?_, fun zd hvirt => ?_,
    fun zd m hm hf => ?_⟩
  · cases hl.symm.trans (resolveIndexed_of_virtual (s := s.advance 4) hvirt)
    cases hv
    exact ⟨rfl, rfl⟩
  · rw [hsf fd z hz]
    exact finish_moveWrite_of_allowed ha hw
  · rw [hsf fd z hz]
    exact finish_moveWrite_of_forbidden hf
  · rw [hss zd m hm]
    exact finish_moveWrite_of_allowed ha hw
  · rw [hss zd .null (resolveIndexed_of_virtual hvirt), moveWrite_of_allowed rfl, locWrite, finish_ok]
  · rw [hss zd m hm]
    exact finish_moveWrite_of_forbidden hf

/-! ### The push of a literal -/

/-- `PUSHL` under a virtual register (R79, R267). -/
theorem pushl_virtual (hx : s.cfg.xinst = true) (h : isVirtual s.fsr2 = true) (k : Byte) :
    exec (.pushl k) s = .fault .virtualViaFsr2 := by
  rw [exec, execPushl, requireXinst_on hx, if_pos h]

/-- `PUSHL` elsewhere stores where FSR2 points, and then decrements what the store left in FSR2 (R267). -/
theorem pushl_of_resolve (hx : s.cfg.xinst = true) (h : isVirtual s.fsr2 = false)
    (hl : resolveDirect s s.fsr2 = .ok l) (k : Byte) :
    exec (.pushl k) s = andThen (locWrite (s.advance 2) l k) fun t => .next { t with fsr2 := t.fsr2 - 1 } := by
  have hl2 : resolveDirect (s.advance 2) s.fsr2 = .ok l := (resolveDirect_setPc ..).trans hl
  rw [exec, execPushl, requireXinst_on hx, if_neg (Bool.eq_false_iff.mp h), hl2, andThen_ok]

/-- Settles O38: moving pc changes neither where FSR2 points nor what can be written there. -/
theorem pushLiteral : Obligations.PushLiteral := by
  intro s k hx
  refine ⟨fun l hvirt hl hw => ?_, fun hvirt => pushl_virtual hx hvirt k⟩
  obtain ⟨t, ht⟩ := (locWrite_isOk (s.advance 2) l k).mpr hw
  refine ⟨t, ht, ?_⟩
  rw [pushl_of_resolve hx hvirt hl, ht, andThen_ok]

end Sys2Proof.Machine
end

section
/-! PROOFS. The interrupt that is due at an instruction boundary, and its entry with and without room on the return
stack. -/

namespace Sys2Proof.Machine

variable {s : State} {p : Priority}

/-! ### The gates and the priority -/

theorem Source.mem_all (src : Source) : src ∈ Source.all := by
  obtain ⟨peripheral, priority⟩ := src
  cases peripheral <;> cases priority <;> decide

/-- A request passes to an entry exactly if one that stands has its gate open and leads there (R283). -/
theorem requestPasses_iff :
    requestPasses s p = true ↔ ∃ src, s.requests.has src = true ∧ gateOpen s src = true ∧ entryPriority s src = p := by
  rw [requestPasses, List.any_eq_true]
  refine exists_congr fun src => ?_
  rw [Bool.and_eq_true, Bool.and_eq_true, decide_eq_true_iff, and_assoc]
  exact and_iff_right src.mem_all

/-- A request that passes at high priority is entered whatever else stands (R289(b)). -/
theorem interruptDue_high_iff : interruptDue s = some .high ↔ requestPasses s .high = true := by
  rw [interruptDue]
  cases requestPasses s .high <;> cases requestPasses s .low <;> decide

/-- A request that passes at low priority is entered only if none passes at high (R289(b)). -/
theorem interruptDue_low_iff :
    interruptDue s = some .low ↔ requestPasses s .low = true ∧ ¬ requestPasses s .high = true := by
  rw [interruptDue]
  cases requestPasses s .high <;> cases requestPasses s .low <;> decide

/-! ### A push without room -/

theorem pushThen_full_admitted (hfull : s.cfg.stackDepth ≤ s.sp) (ha : s.cfg.admitted = true) (x : ProgAddr)
    (k : State → Result) : pushThen s x k = .fault .stackOverflow := by
  rw [pushThen, if_pos hfull, if_pos ha]

/-- With `STVREN = 0` outside the admitted model a push on a full stack loses its value (R40). -/
theorem pushThen_full_lost (hfull : s.cfg.stackDepth ≤ s.sp) (ha : s.cfg.admitted = false) (hv : s.cfg.stvren = false)
    (x : ProgAddr) (k : State → Result) : pushThen s x k = k { s with stkful := true } := by
  rw [pushThen, if_pos hfull, if_neg (Bool.eq_false_iff.mp ha), if_neg (Bool.eq_false_iff.mp hv)]

/-- A push that resets the device, on a stack that is not yet full, fills it. -/
theorem sp_succ_of_pushResets (h : pushResets s = true) (hlt : s.sp < s.cfg.stackDepth) :
    s.sp + 1 = s.cfg.stackDepth := by
  simp only [pushResets, Bool.and_eq_true, decide_eq_true_eq] at h
  have hs := sp_succ hlt
  rw [BitVec.lt_def] at hlt
  exact BitVec.eq_of_toNat_eq (by omega)

/-- The state that a push which fills the stack or finds it full resets: but for the entries, and SP, which the reset
clears, it is the state before the push with STKFUL set (R40). -/
theorem pushThen_resets_stkful (h : pushResets s = true) (x : ProgAddr) (k : State → Result) :
    ∃ m, pushThen s x k = .next (deviceReset .stack { s with stack := m, stkful := true }) := by
  have hset : s.cfg.admitted = false ∧ s.cfg.stvren = true := by
    simp only [pushResets, Bool.and_eq_true, Bool.not_eq_true'] at h
    exact h.1
  obtain ⟨ha, hv⟩ := hset
  by_cases hfull : s.cfg.stackDepth ≤ s.sp
  · refine ⟨s.stack, ?_⟩
    rw [pushThen, if_pos hfull, if_neg (Bool.eq_false_iff.mp ha), if_pos hv]
  · have hfills : s.sp + 1 = s.cfg.stackDepth := sp_succ_of_pushResets h (BitVec.not_le.mp hfull)
    refine ⟨s.stack.setIfInBounds s.sp.toNat x, ?_⟩
    simp only [pushThen, if_neg hfull, ha, hv, State.pushed_eq, hfills, Bool.not_false, Bool.and_self, Bool.or_true,
      decide_true, if_true]
    rfl

/-! ### The entry -/

/-- Where the return address is lost the entry takes place all the same (log entry 31). -/
theorem takeInterrupt_lost (hfull : s.cfg.stackDepth ≤ s.sp) (ha : s.cfg.admitted = false) (hv : s.cfg.stvren = false) :
    takeInterrupt p s = .next (({ s with stkful := true } : State).entered p) := by
  rw [takeInterrupt, pushThen_full_lost hfull ha hv]
  cases p <;> rfl

/-- Settles O56: the gates as defined, the order of the two entries, and the entry's push in each state of the stack. -/
theorem interruptEntry : Obligations.InterruptEntry := by
  refine ⟨fun s src => ⟨rfl, rfl⟩, fun s => ⟨?_, ?_⟩, fun s p hr hd hin hp => ?_⟩
  · exact interruptDue_high_iff.trans requestPasses_iff
  · exact interruptDue_low_iff.trans (and_congr requestPasses_iff (not_congr requestPasses_iff))
  · have hstep := step_of_interruptDue hr hd hin hp
    refine ⟨fun hroom => ?_, fun ha hfull => ?_, fun hreset => ?_, fun ha hv hfull => ?_⟩
    · rw [hstep, takeInterrupt_room (s := { s.arrive with skipped := false }) hroom, State.pushed_eq]
      cases p <;> rfl
    · rw [hstep]
      exact pushThen_full_admitted (s := { s.arrive with skipped := false }) hfull ha _ _
    · obtain ⟨m, hm⟩ := pushThen_resets_stkful (s := { s.arrive with skipped := false }) hreset _ _
      exact ⟨_, hstep.trans hm, rfl, rfl, rfl, rfl, rfl, rfl, rfl, rfl, rfl, rfl, rfl⟩
    · rw [hstep, takeInterrupt_lost (s := { s.arrive with skipped := false }) hfull ha hv]
      cases p <;> rfl

end Sys2Proof.Machine
end

section
/-! PROOFS. The watchdog of a running core. -/

namespace Sys2Proof.Machine

variable {s : State}

/-- Without a power-on or a master clear only a time-out can reset a running core, and only one that comes with the
watchdog on and after an instruction has run (R297). -/
theorem resetDue_of_running (hr : s.runState = .running) (hp : .powerOn ∉ s.movesNow) (hm : .masterClear ∉ s.movesNow) :
    resetDue s = if s.cfg.wdten = true ∧ .wdtTimeout ∈ s.movesNow ∧ s.wdtCounter ≠ 0 then some .watchdog else none := by
  rw [resetDue, if_neg hp, if_neg hm]
  simp only [wdtExpires, hr, decide_true, Bool.and_true, Bool.and_eq_true, decide_eq_true_eq, and_assoc]

/-- A boundary at which a reset is due makes it, the environment's moves made. -/
theorem step_of_resetDue {k : ResetKind} (h : resetDue s = some k) : step s = .next (deviceReset k s.arrive) := by
  rw [step, turn, h]

/-- Settles O59: by the reset due in a running core. -/
theorem watchdogTimeoutResets : Obligations.WatchdogTimeoutResets := by
  intro s hr hp hm
  have hdue := resetDue_of_running hr hp hm
  refine ⟨fun hquiet => ?_, fun hto hwdt hcount => ?_⟩
  · have hd : resetDue s = none := by
      rw [hdue, if_neg]
      rintro ⟨hwdt, -, hcount⟩
      rcases hquiet with hoff | hcleared
      · cases hoff.symm.trans hwdt
      · exact hcount hcleared
    exact ⟨hd, turn_of_running hr hd⟩
  · have hd : resetDue s = some .watchdog := by rw [hdue, if_pos ⟨hwdt, hto, hcount⟩]
    exact ⟨_, step_of_resetDue hd, rfl, rfl, rfl, rfl, rfl, rfl, rfl⟩

end Sys2Proof.Machine
end

section
/-! PROOFS. Where every kind of device reset starts again, and the two resets that come from outside: the power-on and
the reset pin. -/

namespace Sys2Proof.Machine

variable {s : State}

/-- Settles O5: what every device reset starts with, clears and keeps. -/
theorem everyResetStartsAtVectorZero : Obligations.EveryResetStartsAtVectorZero := by
  intro k s
  obtain ⟨hpc, hrun, hgieh, hgiel, -⟩ := deviceReset_start k s
  obtain ⟨hrequests, -⟩ := deviceReset_quiet k s
  obtain ⟨hprog, hcfg, -⟩ := deviceReset_kept k s
  exact ⟨hpc, hgieh, hgiel, hrun, hrequests, hcfg, hprog⟩

/-! ### The resets from outside -/

/-- A power-on wins over every other reset of the boundary (log entry 11). -/
theorem resetDue_powerOn (hp : .powerOn ∈ s.movesNow) : resetDue s = some .powerOn := by
  rw [resetDue, if_pos hp]

/-- The reset pin wins over everything but a power-on, whether the core runs or sleeps (R289, log entry 11). -/
theorem resetDue_masterClear (hp : .powerOn ∉ s.movesNow) (hm : .masterClear ∈ s.movesNow) :
    resetDue s = some .masterClear := by
  rw [resetDue, if_neg hp, if_pos hm]

/-- Settles O60: the reset due does not look at the requests, and the moves of the boundary change nothing else that the
reset keeps. -/
theorem externalResets : Obligations.ExternalResets := by
  intro s
  refine ⟨fun hm hp => ?_, fun hp => step_of_resetDue (resetDue_powerOn hp)⟩
  obtain ⟨hpc, hrun, hgieh, hgiel, hsp⟩ := deviceReset_start .masterClear s.arrive
  obtain ⟨hrequests, -⟩ := deviceReset_quiet .masterClear s.arrive
  obtain ⟨-, -, henv⟩ := deviceReset_kept .masterClear s.arrive
  exact ⟨_, step_of_resetDue (resetDue_masterClear hp hm), hpc, hrun, hsp, hgieh, hgiel, hrequests, rfl, rfl, rfl, rfl,
    rfl, rfl, henv⟩

end Sys2Proof.Machine
end
